-- ==== Sys2Proof/Word.lean ====
section
/-! DEFINITION. The words of the part's bus and of its non-volatile copy. Everything else the manual counts in is an
integer "in the stated units" (00_scope.md, Arithmetic). -/

namespace Sys2Proof

/-- One byte of a CAN FD frame (R175). -/
abbrev Byte := BitVec 8

/-- One word of the non-volatile copy (R195). -/
abbrev Word16 := BitVec 16

end Sys2Proof
end

