-- ==== Sys2Proof/Syntax.lean ====
section
/-! DEFINITION. The commands of the T2460: one constructor per row of spec/opcode_table.json, with the operands that the
row's event carries from outside. A request's operands are the bytes of the frame that FRAME_RECEIVED brought (R174,
R177), so a request row carries none of its own. -/

namespace Sys2Proof

/-- The eleven transducer channels, in the order of the table of section 1.6. -/
inductive Channel where
  | ln | lvl | lvr | xl | axs | dlo | dli | dri | dro | pl | pr
  deriving DecidableEq, Repr

/-- The four axes of the lift and lining drive (chapter 8). -/
inductive Axis where
  | line | liftL | liftR | aux
  deriving DecidableEq, Repr

/-- The four tamping units (section 9.1). -/
inductive TampUnit where
  | lo | li | ri | ro
  deriving DecidableEq, Repr

/-- The eight tine arms, in the order of the fold set (R192). -/
inductive Arm where
  | loF | loA | liF | liA | riF | riA | roF | roA
  deriving DecidableEq, Repr

/-- The levels of the four scanner lines: `true` is present. The same shape holds the value and the mask of a pattern
cell (R30). -/
structure ScanLines where
  se : Bool
  fl : Bool
  fr : Bool
  cm : Bool
  deriving DecidableEq, Repr

/-- R195: the non-volatile copy, 52 words in the order of the working record and a checksum word. -/
structure NvCopy where
  words : List Word16
  checksum : Word16
  deriving DecidableEq, Repr

/-- R174: a frame as the bus delivers it. -/
structure BusFrame where
  extended : Bool
  remote : Bool
  ident : Nat
  data : List Byte
  deriving DecidableEq, Repr

/-- The commands. -/
inductive Instr where
  /-- POWER_ON (R203). -/
  | powerOn
  /-- START_UP_SETTLING (R203): the sample at which every depth channel first holds 8 counts. -/
  | startUpSettling (ch : Channel) (level : Int)
  /-- PART_RESET (R204): the request. -/
  | partReset
  /-- PART_RESET_TAKES_EFFECT (R204). -/
  | partResetTakesEffect
  /-- ODOMETER_PULSE (R1): the two odometer lines as now observed, and the scanner lines as they stand (R19). -/
  | odometerPulse (line1 line2 : Bool) (lines : ScanLines)
  /-- STANDSTILL_TIMER_EXPIRY (R7). -/
  | standstillTimerExpiry
  /-- CHANNEL_SAMPLE (R13): one sample of a channel; the level is what the input would read without the converter's
  ends. -/
  | channelSample (ch : Channel) (level : Int)
  /-- FOLD_CONFIRM (R156): a fold confirm line takes a level, `true` for FOLDED. -/
  | foldConfirm (arm : Arm) (folded : Bool)
  /-- EMERGENCY_STOP_ASSERTED (R165). -/
  | emergencyStopAsserted
  /-- EMERGENCY_STOP_RELEASED (R165). -/
  | emergencyStopReleased
  /-- MOVE_TIMER_EXPIRY (R138). -/
  | moveTimerExpiry (axis : Axis)
  /-- RELEASE_TIMER_EXPIRY (R142). -/
  | releaseTimerExpiry
  /-- FOLD_TIMEOUT (R156). -/
  | foldTimeout
  /-- PENETRATION_TIMEOUT (R157). -/
  | penetrationTimeout
  /-- SQUEEZE_TIMER_EXPIRY (R158). -/
  | squeezeTimerExpiry
  /-- RAISE_TIMEOUT (R159). -/
  | raiseTimeout
  /-- LOCKOUT_RAISE_TIMEOUT (R167). -/
  | lockoutRaiseTimeout
  /-- END_OF_SAVE (R199): the non-volatile copy as it is read back. -/
  | endOfSave (readBack : NvCopy)
  /-- FRAME_RECEIVED (R174). -/
  | frameReceived (frame : BusFrame)
  /-- FRAME_TRANSMITTED (R182). -/
  | frameTransmitted
  /-- BUS_OFF (R187). -/
  | busOff
  /-- LINK_RESTART (R187). -/
  | linkRestart
  /-- HALT (R184): the pending HALT is admitted. -/
  | halt
  /-- STOP_POINT (R184): the pending STOP POINT is admitted. -/
  | stopPoint
  /-- EVENT (R185): the first pending-event entry in the arbiter's order is admitted. -/
  | event
  /-- SLEEPER_DONE (R54). -/
  | sleeperDone
  /-- STATUS (R188). -/
  | status
  /-- IDENTIFY (R189). -/
  | identify
  /-- AUTH_GIVE (R180). -/
  | authGive
  /-- AUTH_TAKE (R181). -/
  | authTake
  /-- ORIGIN_SET (R8, R9). -/
  | originSet
  /-- SETTING_WRITE (R196). -/
  | settingWrite
  /-- SETTING_READ (R197). -/
  | settingRead
  /-- STORE_SAVE (R198). -/
  | storeSave
  /-- STORE_LOAD (R200). -/
  | storeLoad
  /-- ZERO_CAPTURE (R201). -/
  | zeroCapture
  /-- PLAN_WRITE (R63). -/
  | planWrite
  /-- PLAN_LINK (R65). -/
  | planLink
  /-- PLAN_CLEAR (R67). -/
  | planClear
  /-- PLAN_READ (R68). -/
  | planRead
  /-- PLAN_RUN (R73). -/
  | planRun
  /-- PLAN_WAKE (R87). -/
  | planWake
  /-- PLAN_STOP (R88). -/
  | planStop
  /-- CORR_GRID (R99). -/
  | corrGrid
  /-- CORR_WINDOW (R100). -/
  | corrWindow
  /-- CORR_DATA (R102). -/
  | corrData
  /-- CORR_READ (R103). -/
  | corrRead
  /-- TRIM_SET (R106). -/
  | trimSet
  /-- TRIM_UP (R107). -/
  | trimUp
  /-- TRIM_DOWN (R107). -/
  | trimDown
  /-- PATTERN_SET (R33). -/
  | patternSet
  /-- PATTERN_ENABLE (R34). -/
  | patternEnable
  /-- PATTERN_READ (R35). -/
  | patternRead
  /-- QUEUE_READ (R52, R53). -/
  | queueRead
  /-- SKIP_MARK (R51). -/
  | skipMark
  /-- HALT_CLEAR (R48). -/
  | haltClear
  /-- MODE_SET (R150). -/
  | modeSet
  /-- CYCLE_START (R153). -/
  | cycleStart
  /-- CYCLE_STOP (R162). -/
  | cycleStop
  /-- UNITS_RAISE (R168). -/
  | unitsRaise
  /-- FAULT_CLEAR (R169). -/
  | faultClear
  /-- UNKNOWN_KIND_REQUEST (R177). -/
  | unknownKindRequest
  /-- POWER_LOSS (R199): power is lost; `left` is what the non-volatile copy is left holding if a save was running. -/
  | powerLoss (left : NvCopy)
  deriving DecidableEq, Repr

end Sys2Proof
end

