-- ==== Sys2Proof/Config.lean ====
section
/-! DEFINITION. What the manual leaves to each part: the silicon revision. -/

namespace Sys2Proof

/-- R189: the silicon revision is 1..255, as fixed in the part. The manual gives no value, so this constant has no
body; the revision is one more than it (log entry 6). -/
opaque Config.siliconRevisionIndex : Fin 255

/-- R189: the silicon revision, 1..255. -/
def Config.siliconRevision : Nat := Config.siliconRevisionIndex.val + 1

end Sys2Proof
end

