-- ==== Sys2Proof/Machine/Settings.lean ====
section
/-! DEFINITION. The working settings record, its numbering, ranges and factory defaults (section 11.1, R194), and the
non-volatile copy with its checksum (section 11.2, R195). -/

namespace Sys2Proof.Machine
open Sys2Proof

/-- One value for each transducer channel. -/
structure PerChannel (α : Type) where
  ln : α
  lvl : α
  lvr : α
  xl : α
  axs : α
  dlo : α
  dli : α
  dri : α
  dro : α
  pl : α
  pr : α
  deriving DecidableEq, Repr

/-- The value held for a channel. -/
def PerChannel.get {α : Type} (t : PerChannel α) : Channel → α
  | .ln => t.ln | .lvl => t.lvl | .lvr => t.lvr | .xl => t.xl | .axs => t.axs
  | .dlo => t.dlo | .dli => t.dli | .dri => t.dri | .dro => t.dro | .pl => t.pl | .pr => t.pr

/-- The table with one channel's value replaced. -/
def PerChannel.set {α : Type} (t : PerChannel α) (ch : Channel) (v : α) : PerChannel α :=
  match ch with
  | .ln => { t with ln := v } | .lvl => { t with lvl := v } | .lvr => { t with lvr := v }
  | .xl => { t with xl := v } | .axs => { t with axs := v } | .dlo => { t with dlo := v }
  | .dli => { t with dli := v } | .dri => { t with dri := v } | .dro => { t with dro := v }
  | .pl => { t with pl := v } | .pr => { t with pr := v }

/-- The same value for every channel. -/
def PerChannel.fill {α : Type} (v : α) : PerChannel α := ⟨v, v, v, v, v, v, v, v, v, v, v⟩

/-- The channels in the order of R193 and of the setting numbers 32..42 and 48..58. -/
def allChannels : List Channel := [.ln, .lvl, .lvr, .xl, .axs, .dlo, .dli, .dri, .dro, .pl, .pr]

/-- R201: the channel that a code 0..10 names. -/
def channelOfCode (c : Nat) : Option Channel := allChannels[c]?

/-- The 52 settings of section 11.1. The long-body action is 0 SKIP, 1 TAMP. -/
structure Settings where
  pitch : Int
  standstillInterval : Int
  scannerOffset : Int
  a : Int
  b : Int
  av : Int
  bv : Int
  span : Int
  maxLift : Int
  liningLimit : Int
  stepLimit : Int
  minBody : Int
  wideLimit : Int
  longLimit : Int
  longBodyAction : Int
  defaultInsertions : Int
  passMargin : Int
  positionTolerance : Int
  gainLine : Int
  gainLiftL : Int
  gainLiftR : Int
  gainAux : Int
  settleTolerance : Int
  moveTimeout : Int
  releaseTime : Int
  penetrationDepth : Int
  squeezeThreshold : Int
  squeezeTime : Int
  partNode : Int
  supervisorNode : Int
  zero : PerChannel Int
  sensitivity : PerChannel Int
  deriving DecidableEq, Repr

/-- The names of the settings. -/
inductive SettingId where
  | pitch | standstillInterval | scannerOffset | a | b | av | bv | span | maxLift | liningLimit | stepLimit
  | minBody | wideLimit | longLimit | longBodyAction | defaultInsertions | passMargin | positionTolerance
  | gainLine | gainLiftL | gainLiftR | gainAux | settleTolerance | moveTimeout | releaseTime
  | penetrationDepth | squeezeThreshold | squeezeTime | partNode | supervisorNode
  | zero (ch : Channel)
  | sensitivity (ch : Channel)
  deriving DecidableEq, Repr

/-- The settings numbered 1..30. -/
def plainSettings : List SettingId :=
  [.pitch, .standstillInterval, .scannerOffset, .a, .b, .av, .bv, .span, .maxLift, .liningLimit, .stepLimit,
   .minBody, .wideLimit, .longLimit, .longBodyAction, .defaultInsertions, .passMargin, .positionTolerance,
   .gainLine, .gainLiftL, .gainLiftR, .gainAux, .settleTolerance, .moveTimeout, .releaseTime,
   .penetrationDepth, .squeezeThreshold, .squeezeTime, .partNode, .supervisorNode]

/-- R194: the 52 settings in ascending order of setting number. -/
def allSettings : List SettingId :=
  plainSettings ++ allChannels.map .zero ++ allChannels.map .sensitivity

/-- Section 11.1: the setting that a number names; 31, 43..47 and 59 and above name none, and neither does 0. -/
def settingOfNumber (n : Nat) : Option SettingId :=
  if n = 0 then none
  else if n ≤ 30 then plainSettings[n - 1]?
  else if 32 ≤ n ∧ n ≤ 42 then (channelOfCode (n - 32)).map .zero
  else if 48 ≤ n ∧ n ≤ 58 then (channelOfCode (n - 48)).map .sensitivity
  else none

/-- The value of a setting in a record. -/
def Settings.get (st : Settings) : SettingId → Int
  | .pitch => st.pitch
  | .standstillInterval => st.standstillInterval
  | .scannerOffset => st.scannerOffset
  | .a => st.a
  | .b => st.b
  | .av => st.av
  | .bv => st.bv
  | .span => st.span
  | .maxLift => st.maxLift
  | .liningLimit => st.liningLimit
  | .stepLimit => st.stepLimit
  | .minBody => st.minBody
  | .wideLimit => st.wideLimit
  | .longLimit => st.longLimit
  | .longBodyAction => st.longBodyAction
  | .defaultInsertions => st.defaultInsertions
  | .passMargin => st.passMargin
  | .positionTolerance => st.positionTolerance
  | .gainLine => st.gainLine
  | .gainLiftL => st.gainLiftL
  | .gainLiftR => st.gainLiftR
  | .gainAux => st.gainAux
  | .settleTolerance => st.settleTolerance
  | .moveTimeout => st.moveTimeout
  | .releaseTime => st.releaseTime
  | .penetrationDepth => st.penetrationDepth
  | .squeezeThreshold => st.squeezeThreshold
  | .squeezeTime => st.squeezeTime
  | .partNode => st.partNode
  | .supervisorNode => st.supervisorNode
  | .zero ch => st.zero.get ch
  | .sensitivity ch => st.sensitivity.get ch

/-- The record with one setting replaced. -/
def Settings.set (st : Settings) (id : SettingId) (v : Int) : Settings :=
  match id with
  | .pitch => { st with pitch := v }
  | .standstillInterval => { st with standstillInterval := v }
  | .scannerOffset => { st with scannerOffset := v }
  | .a => { st with a := v }
  | .b => { st with b := v }
  | .av => { st with av := v }
  | .bv => { st with bv := v }
  | .span => { st with span := v }
  | .maxLift => { st with maxLift := v }
  | .liningLimit => { st with liningLimit := v }
  | .stepLimit => { st with stepLimit := v }
  | .minBody => { st with minBody := v }
  | .wideLimit => { st with wideLimit := v }
  | .longLimit => { st with longLimit := v }
  | .longBodyAction => { st with longBodyAction := v }
  | .defaultInsertions => { st with defaultInsertions := v }
  | .passMargin => { st with passMargin := v }
  | .positionTolerance => { st with positionTolerance := v }
  | .gainLine => { st with gainLine := v }
  | .gainLiftL => { st with gainLiftL := v }
  | .gainLiftR => { st with gainLiftR := v }
  | .gainAux => { st with gainAux := v }
  | .settleTolerance => { st with settleTolerance := v }
  | .moveTimeout => { st with moveTimeout := v }
  | .releaseTime => { st with releaseTime := v }
  | .penetrationDepth => { st with penetrationDepth := v }
  | .squeezeThreshold => { st with squeezeThreshold := v }
  | .squeezeTime => { st with squeezeTime := v }
  | .partNode => { st with partNode := v }
  | .supervisorNode => { st with supervisorNode := v }
  | .zero ch => { st with zero := st.zero.set ch v }
  | .sensitivity ch => { st with sensitivity := st.sensitivity.set ch v }

/-- Section 11.1: the factory defaults. -/
def Settings.factory : Settings where
  pitch := 2500
  standstillInterval := 200
  scannerOffset := 9000
  a := 15000
  b := 4500
  av := 12000
  bv := 3000
  span := 1500
  maxLift := 800
  liningLimit := 600
  stepLimit := 80
  minBody := 12
  wideLimit := 35
  longLimit := 61
  longBodyAction := 0
  defaultInsertions := 1
  passMargin := 150
  positionTolerance := 30
  gainLine := 40
  gainLiftL := 40
  gainLiftR := 40
  gainAux := 40
  settleTolerance := 5
  moveTimeout := 4000
  releaseTime := 300
  penetrationDepth := 4000
  squeezeThreshold := 1100
  squeezeTime := 800
  partNode := 8
  supervisorNode := 1
  zero := .fill 0
  sensitivity := ⟨160, 160, 160, 160, 256, 512, 512, 512, 512, 64, 64⟩

/-- Section 11.1: the range of each setting, apart from what one setting demands of another and from the 0 that a
sensitivity may not take. The long limit's own range begins one above the least wide limit. -/
def SettingId.range : SettingId → Int × Int
  | .pitch => (1000, 5000)
  | .standstillInterval => (50, 1000)
  | .scannerOffset => (2000, 30000)
  | .a => (5000, 30000)
  | .b => (2000, 20000)
  | .av => (5000, 30000)
  | .bv => (2000, 20000)
  | .span => (1000, 2000)
  | .maxLift => (0, 1500)
  | .liningLimit => (0, 1500)
  | .stepLimit => (10, 400)
  | .minBody => (6, 30)
  | .wideLimit => (20, 60)
  | .longLimit => (21, 64)
  | .longBodyAction => (0, 1)
  | .defaultInsertions => (1, 4)
  | .passMargin => (50, 500)
  | .positionTolerance => (5, 100)
  | .gainLine => (1, 200)
  | .gainLiftL => (1, 200)
  | .gainLiftR => (1, 200)
  | .gainAux => (1, 200)
  | .settleTolerance => (2, 30)
  | .moveTimeout => (1000, 10000)
  | .releaseTime => (100, 1000)
  | .penetrationDepth => (1000, 6000)
  | .squeezeThreshold => (200, 2000)
  | .squeezeTime => (300, 2000)
  | .partNode => (0, 15)
  | .supervisorNode => (0, 15)
  | .zero _ => (-32768, 32767)
  | .sensitivity _ => (-8192, 8192)

/-- A value a setting may take on its own: within its range, and not 0 for a sensitivity (R14, R194). -/
def SettingId.admits (id : SettingId) (v : Int) : Bool :=
  decide (id.range.1 ≤ v ∧ v ≤ id.range.2) &&
    match id with
    | .sensitivity _ => decide (v ≠ 0)
    | _ => true

/-- R194: a record is consistent when every setting lies within its range, the wide limit lies below the long limit,
the part node differs from the supervisor node, and no sensitivity is 0. -/
def Settings.consistent (st : Settings) : Bool :=
  allSettings.all (fun id => id.admits (st.get id)) &&
    decide (st.wideLimit < st.longLimit) && decide (st.partNode ≠ st.supervisorNode)

/-- R194: the record as 52 signed 16-bit words, in ascending order of setting number. -/
def Settings.toWords (st : Settings) : List Word16 :=
  allSettings.map fun id => BitVec.ofInt 16 (st.get id)

/-- R195: the record that 52 words form. -/
def Settings.ofWords (ws : List Word16) : Settings :=
  (allSettings.zip ws).foldl (fun st iw => st.set iw.1 iw.2.toInt) Settings.factory

/-- R195: the sum of the words as unsigned 16-bit values. -/
def wordSum (ws : List Word16) : Nat := (ws.map BitVec.toNat).sum

/-- R195: the ones' complement of the sum modulo 65536. -/
def checksumOf (ws : List Word16) : Word16 := BitVec.ofNat 16 (65535 - wordSum ws % 65536)

/-- R195, R198: the copy that a save of this record writes: its words and their checksum. -/
def Settings.snapshot (st : Settings) : NvCopy := { words := st.toWords, checksum := checksumOf st.toWords }

/-- R195: the words and the checksum word sum to 65535 modulo 65536, and the record they form is consistent. -/
def copyValid (c : NvCopy) : Bool :=
  decide (c.words.length = 52) && decide ((wordSum c.words + c.checksum.toNat) % 65536 = 65535) &&
    (Settings.ofWords c.words).consistent

end Sys2Proof.Machine
end

