-- ==== Sys2Proof/Machine/State.lean ====
section
/-! DEFINITION. The state of the part: every piece of state the manual gives it, block by block, plus the queue of the
commands that wait; the reasons a step can stop; and the state right after reset. Each structure's docstring names the
table or rule that lists its parts. -/

namespace Sys2Proof.Machine
open Sys2Proof

/-! ### Small tables -/

/-- One value for each axis. -/
structure PerAxis (α : Type) where
  line : α
  liftL : α
  liftR : α
  aux : α
  deriving DecidableEq, Repr

/-- One value for each tamping unit. -/
structure PerUnit (α : Type) where
  lo : α
  li : α
  ri : α
  ro : α
  deriving DecidableEq, Repr

/-- One value for each tine arm. -/
structure PerArm (α : Type) where
  loF : α
  loA : α
  liF : α
  liA : α
  riF : α
  riA : α
  roF : α
  roA : α
  deriving DecidableEq, Repr

/-- One value for each of the six pattern slots. -/
structure PerSlot (α : Type) where
  s1 : α
  s2 : α
  s3 : α
  s4 : α
  s5 : α
  s6 : α
  deriving DecidableEq, Repr

/-- A set of arms: the fold set. -/
abbrev ArmSet := PerArm Bool

/-- A set of pattern slots: the matched set. -/
abbrev SlotSet := PerSlot Bool

/-- A numbered store in one canonical form: numbers strictly rising, and no entry equal to what an unlisted number
reads as. -/
abbrev Table (α : Type) := List (Nat × α)

/-! ### Travel counter (section 1.1) -/

/-- The working direction. -/
inductive Direction where
  | ascending | descending
  deriving DecidableEq, Repr

/-- The origin state. -/
inductive OriginState where
  | none | set
  deriving DecidableEq, Repr

/-- The motion state (R7). -/
inductive Motion where
  | standstill | moving
  deriving DecidableEq, Repr

/-- The sense of a pulse (R1). -/
inductive Move where
  | forward | backward
  deriving DecidableEq, Repr

/-- The travel counter: the table of section 1.1. The standstill timer holds the interval it was started with. -/
structure Travel where
  pulses : Int
  origin : Int
  direction : Direction
  originState : OriginState
  motion : Motion
  lastMove : Move
  standstillTimer : Option Int
  highLimit : Bool
  lowLimit : Bool
  deriving DecidableEq, Repr

/-! ### Sleeper scanner (head of chapter 2) -/

/-- The scanner state. -/
inductive ScanPhase where
  | seeking | inBody | closing
  deriving DecidableEq, Repr

/-- R19: a cell, its position and the levels of the four lines. -/
structure Cell where
  position : Int
  lines : ScanLines
  deriving DecidableEq, Repr

/-- The seen flags or the gap flags of a body: FL, FR and CM. -/
structure Seen where
  fl : Bool
  fr : Bool
  cm : Bool
  deriving DecidableEq, Repr

/-- The pending body. -/
structure Body where
  first : Int
  last : Int
  length : Nat
  seen : Seen
  absentRun : Nat
  gap : Seen
  closing : Nat
  deriving DecidableEq, Repr

/-- R30: a pattern cell, a value and a mask. -/
structure PatternCell where
  value : ScanLines
  mask : ScanLines
  deriving DecidableEq, Repr

/-- R30: the action kind of a pattern. -/
inductive PatternAction where
  | mark | fold | skip | halt
  deriving DecidableEq, Repr

/-- R30: a pattern slot. The length n is the number of its cells. -/
structure Pattern where
  enabled : Bool
  anchor : Int
  cells : List PatternCell
  action : PatternAction
  foldSet : ArmSet
  insertions : Nat
  deriving DecidableEq, Repr

/-- The sleeper scanner: the table at the head of chapter 2. -/
structure Scanner where
  active : Bool
  window : List Cell
  front : Option Int
  phase : ScanPhase
  guardSet : Bool
  body : Option Body
  patterns : PerSlot Pattern
  deriving DecidableEq, Repr

/-! ### Sleeper queue (chapter 3) -/

/-- R27: the class of a sleeper. -/
inductive SleeperClass where
  | standard | wide | longBody
  deriving DecidableEq, Repr

/-- R37: why a record is to be skipped. -/
inductive SkipCause where
  | pattern | longBody | allFolded | manual
  deriving DecidableEq, Repr

/-- R37: the state of a record. -/
inductive RecordState where
  | pending | inCycle | tamped | skipped | passed | failed
  deriving DecidableEq, Repr

/-- R37: the failure cause of a record. -/
inductive FailureCause where
  | stopped | travelFault | estop | unitStuck
  deriving DecidableEq, Repr

/-- Section 7.6: the target flag set. -/
structure TargetFlags where
  noPlanH : Bool
  noPlanV : Bool
  heldH : Bool
  heldV : Bool
  uncorrectedH : Bool
  uncorrectedV : Bool
  stepLimit : Bool
  lineLimit : Bool
  lnFault : Bool
  refSwapped : Bool
  levelFault : Bool
  xlFault : Bool
  lowSpotL : Bool
  lowSpotR : Bool
  liftLimitL : Bool
  liftLimitR : Bool
  lowSpotAux : Bool
  liftLimitAux : Bool
  deriving DecidableEq, Repr

/-- R129: the targets part of a record. -/
structure Targets where
  shift : Int
  liftL : Int
  liftR : Int
  aux : Option Int
  flags : TargetFlags
  deriving DecidableEq, Repr

/-- R160: the unit flag set. -/
structure UnitFlags where
  folded : Bool
  foldFault : Bool
  penShort : Bool
  squeezeTimed : Bool
  deriving DecidableEq, Repr

/-- R160: the result part of a record; a residual is present for each axis that was started (R143). -/
structure CycleResult where
  residuals : PerAxis (Option Int)
  depths : PerUnit Int
  insertionsDone : Nat
  unitFlags : PerUnit UnitFlags
  deriving DecidableEq, Repr

/-- R28: what the scanner asks the queue to record. A clear skip flag is an absent cause. -/
structure Candidate where
  centre : Int
  length : Nat
  sleeperClass : SleeperClass
  seen : Seen
  unfastened : Bool
  matched : SlotSet
  foldSet : ArmSet
  skip : Option SkipCause
  halt : Bool
  insertions : Nat
  deriving DecidableEq, Repr

/-- R37: a sleeper record. -/
structure SleeperRecord where
  number : Nat
  candidate : Candidate
  state : RecordState
  failure : Option FailureCause
  tampCount : Nat
  targets : Option Targets
  result : Option CycleResult
  reported : Bool
  deriving DecidableEq, Repr

/-- R49: a stop point: none, a sleeper to tamp, or the latched sleeper. -/
inductive StopPoint where
  | none
  | tamp (sleeper : Nat)
  | halt (sleeper : Nat)
  deriving DecidableEq, Repr

/-- R39: what a cycle start keeps aside. -/
structure Aside where
  state : RecordState
  tampCount : Nat
  reported : Bool
  failure : Option FailureCause
  deriving DecidableEq, Repr

/-- The sleeper queue: the table at the head of chapter 3, the aside copy of R39 and the answer of R45 as last
renewed. -/
structure Queue where
  records : List SleeperRecord
  nextNumber : Nat
  exhausted : Bool
  latch : Option Nat
  lastStop : StopPoint
  motion : Motion
  aside : Option Aside
  inPosition : Option Nat
  deriving DecidableEq, Repr

/-! ### Plan memory and contexts (chapters 4 and 5) -/

/-- R57: how a SEGMENT-H names its reference rail. -/
inductive ReferenceRail where
  | left | right | low
  deriving DecidableEq, Repr

/-- R57: a SEGMENT-H descriptor. The diverging part is the offsets at start and at end. -/
structure SegmentH where
  length : Int
  curvatureStart : Int
  curvatureEnd : Int
  cantStart : Int
  cantEnd : Int
  reference : ReferenceRail
  diverging : Option (Int × Int)
  link : Option Nat
  deriving DecidableEq, Repr

/-- R58: a SEGMENT-V descriptor. -/
structure SegmentV where
  length : Int
  curvature : Int
  baseLift : Int
  link : Option Nat
  deriving DecidableEq, Repr

/-- Section 4.2: a descriptor of one of the six kinds. The links of CALL and REPEAT are always present (R59). -/
inductive Descriptor where
  | segmentH (s : SegmentH)
  | segmentV (s : SegmentV)
  | branch (target : Nat)
  | call (target link : Nat)
  | ret
  | repeatRun (count link : Nat)
  deriving DecidableEq, Repr

/-- R56: the state of a slot. -/
inductive SlotState where
  | empty | loaded | inUse | done
  deriving DecidableEq, Repr

/-- R56: the completion code of a DONE slot. -/
inductive CompletionCode where
  | traversed | cut | executed | repeatCancelled
  deriving DecidableEq, Repr

/-- R56: a slot of plan memory. -/
structure Slot where
  state : SlotState
  code : Option CompletionCode
  contents : Option Descriptor
  deriving DecidableEq, Repr

/-- The two plan contexts. -/
inductive ContextId where
  | h | v
  deriving DecidableEq, Repr

/-- R70: the state of a context. -/
inductive ContextState where
  | stopped | armed | running | starved | dead
  deriving DecidableEq, Repr

/-- R81: the dead code. -/
inductive DeadCode where
  | emptySlot | wrongKind | stackOver | stackUnder | flowLoop
  deriving DecidableEq, Repr

/-- R70: a segment record: the slot, the shadow copy and the start chainage. -/
structure SegmentRecord where
  slot : Nat
  shadow : Descriptor
  start : Int
  deriving DecidableEq, Repr

/-- A plan context: the table at the head of chapter 5. -/
structure Context where
  state : ContextState
  dead : Option (DeadCode × Nat)
  armed : Option (Nat × Int)
  current : Option SegmentRecord
  previous : Option SegmentRecord
  repeatLeft : Nat
  stack : List Nat
  deriving DecidableEq, Repr

/-! ### Front corrections and lift trim (chapter 6) -/

/-- R95: a correction entry; an unset half is absent. -/
structure CorrEntry where
  lateral : Option Int
  vertical : Option Int
  deriving DecidableEq, Repr

/-- R100: the mode of a load window. -/
inductive WindowMode where
  | write | edit
  deriving DecidableEq, Repr

/-- R100: an open load window. -/
structure CorrWindow where
  owner : Int
  first : Nat
  last : Nat
  cursor : Nat
  mode : WindowMode
  deriving DecidableEq, Repr

/-- The front correction table, its grid and its load window. -/
structure Corrections where
  entries : Table CorrEntry
  base : Int
  spacing : Int
  window : Option CorrWindow
  deriving DecidableEq, Repr

/-! ### Lift and lining drive (R131) -/

/-- R131: the state of an axis. -/
inductive AxisPhase where
  | idle | moving | settled | short | held
  deriving DecidableEq, Repr

/-- R131: a move timer; running, it holds the timeout it was started with. -/
inductive MoveTimer where
  | stopped
  | running (ms : Int)
  | expired
  deriving DecidableEq, Repr

/-- R131: an axis. -/
structure AxisState where
  phase : AxisPhase
  started : Bool
  startReading : Option Int
  target : Option Int
  gain : Option Int
  tolerance : Option Int
  timer : MoveTimer
  demand : Int
  deriving DecidableEq, Repr

/-- The lift and lining drive. The release timer holds the release time it was started with. -/
structure Drive where
  axes : PerAxis AxisState
  clampEngaged : Bool
  releaseTimer : Option Int
  deriving DecidableEq, Repr

/-! ### Cycle controller (R149) -/

/-- R149: the cycle state. -/
inductive CyclePhase where
  | idle | positioning | penetrating | squeezing | raising | releasing | lockout
  deriving DecidableEq, Repr

/-- R149: the causes of a lockout. -/
inductive Cause where
  | travelFault | estop | unitStuck | resetDown
  deriving DecidableEq, Repr

/-- R149: the cause set. -/
structure CauseSet where
  travelFault : Bool
  estop : Bool
  unitStuck : Bool
  resetDown : Bool
  deriving DecidableEq, Repr

/-- R150: the mode. -/
inductive Mode where
  | manual | auto
  deriving DecidableEq, Repr

/-- R149: what stop has been requested of the running cycle. -/
inductive StopRequest where
  | none | stopped | travelFault
  deriving DecidableEq, Repr

/-- R149: the folding step. -/
inductive FoldingStep where
  | notBegun | inProgress | ended
  deriving DecidableEq, Repr

/-- R149: the role of a unit in a cycle. -/
inductive UnitRole where
  | undecided | lowered | folded | foldFault
  deriving DecidableEq, Repr

/-- R149: what the controller holds for a unit. -/
structure UnitState where
  role : UnitRole
  atDepth : Bool
  squeezeEnded : Bool
  clear : Bool
  depthReached : Int
  flags : UnitFlags
  deriving DecidableEq, Repr

/-- R149, R154: the values taken at a cycle start. -/
structure CycleValues where
  insertions : Nat
  depth : Int
  threshold : Int
  squeezeTime : Int
  foldSet : ArmSet
  deriving DecidableEq, Repr

/-- R149: which timeout the phase timer runs with. -/
inductive PhaseTimer where
  | fold | penetration | squeeze (ms : Int) | raise
  deriving DecidableEq, Repr

/-- R147: a vertical demand as the sequence commands it. -/
inductive Vertical where
  | rest | lower | raise
  deriving DecidableEq, Repr

/-- The cycle controller: the table of R149 and its outputs of R147. -/
structure Cycle where
  phase : CyclePhase
  causes : CauseSet
  mode : Mode
  current : Option Nat
  values : Option CycleValues
  insertionsDone : Nat
  penetrationBegun : Bool
  stopRequested : StopRequest
  folding : FoldingStep
  units : PerUnit UnitState
  phaseTimer : Option PhaseTimer
  lockoutRaise : Bool
  motion : Motion
  vertical : PerUnit Vertical
  squeeze : PerUnit Bool
  fold : ArmSet
  deriving DecidableEq, Repr

/-! ### Message port (head of chapter 10) -/

/-- R187: the link state. -/
inductive LinkState where
  | on | busOff
  deriving DecidableEq, Repr

/-- R174, R175: a request: the kind and the node of its identifier, and the frame's data. -/
structure Request where
  kind : Nat
  node : Int
  data : List Byte
  deriving DecidableEq, Repr

/-- A message of the transmit queue: its identifier, its data without padding, and the length its frame is padded to
(R175). -/
structure Message where
  ident : Int
  data : List Byte
  length : Nat
  deriving DecidableEq, Repr

/-- R184: a HALT report. -/
structure HaltReport where
  sleeper : Nat
  centre : Int
  deriving DecidableEq, Repr

/-- R184: a STOP POINT report; the centre is absent for a sleeper that is removed when it is handed on (R49, log
entry 31). -/
structure StopReport where
  stop : StopPoint
  centre : Option Int
  deriving DecidableEq, Repr

/-- R202: the store status. -/
inductive StoreStatus where
  | loaded | defaulted | saving | saved | fault
  deriving DecidableEq, Repr

/-- R185: the EVENT kinds. -/
inductive EventKind where
  | started | planState | scanOverflow | chainageLimit | lockout | storeDone
  deriving DecidableEq, Repr

/-- R185: an EVENT with its details. -/
inductive Event where
  | started (status : StoreStatus) (phase : CyclePhase) (causes : CauseSet)
  | planState (ctx : ContextId) (state : ContextState) (dead : Option DeadCode) (slot : Option Nat)
  | scanOverflow (centre : Int)
  | chainageLimit (high : Bool) (chainage : Int)
  | lockout (causes : CauseSet) (added : Cause) (sleeper : Option Nat)
  | storeDone (ok : Bool)
  deriving DecidableEq, Repr

/-- R185: an entry of the pending-event set. -/
structure PendingEvent where
  event : Event
  merged : Nat
  deriving DecidableEq, Repr

/-- R185: the pending-event set, at most one entry of each kind. -/
structure PendingEvents where
  started : Option PendingEvent
  lockout : Option PendingEvent
  planState : Option PendingEvent
  chainageLimit : Option PendingEvent
  scanOverflow : Option PendingEvent
  storeDone : Option PendingEvent
  deriving DecidableEq, Repr

/-- The message port: the table at the head of chapter 10, and whether a PART RESET is taken and not yet in effect
(R204). -/
structure Port where
  link : LinkState
  rx : List Request
  tx : List Message
  authority : Int
  halt : Option HaltReport
  stop : Option StopReport
  events : PendingEvents
  seq : Nat
  overrun : Bool
  resetPending : Bool
  deriving DecidableEq, Repr

/-! ### Settings store (head of chapter 11) and lines -/

/-- R203: the part state. -/
inductive PartPhase where
  | starting | ready
  deriving DecidableEq, Repr

/-- The settings store. -/
structure Store where
  working : Settings
  copy : NvCopy
  save : Option NvCopy
  status : StoreStatus
  deriving DecidableEq, Repr

/-- The input lines as the part last saw them: the emergency stop line, the fold confirm lines (`true` is FOLDED) and
the two odometer lines. -/
structure Lines where
  estop : Bool
  folds : PerArm Bool
  odo1 : Bool
  odo2 : Bool
  deriving DecidableEq, Repr

/-- Everything the part holds. -/
structure Part where
  powered : Bool
  phase : PartPhase
  lines : Lines
  travel : Travel
  history : PerChannel (List Int)
  scanner : Scanner
  queue : Queue
  plan : Table Slot
  ctxH : Context
  ctxV : Context
  corr : Corrections
  trim : Int
  drive : Drive
  cycle : Cycle
  port : Port
  store : Store
  deriving DecidableEq, Repr

/-- The state of the block: the part, and the commands that wait, first in, first out. -/
structure State where
  part : Part
  pending : List Instr
  deriving DecidableEq, Repr

/-- Why the machine stops with a fault. There is no reason: the manual gives every command of this part an effect, and
its own faults are states of the cycle controller or statuses of a reply. -/
inductive Fault where
  deriving DecidableEq, Repr

/-- Why a command has no meaning. -/
inductive Refusal where
  /-- Raised by an arm of `exec` whose command has no meaning yet; safe, since it only stops. No arm raises it. -/
  | notModelled (mnemonic : String)
  deriving DecidableEq, Repr

/-! ### The values after reset -/

/-- The table of section 1.1 (R12). -/
def Travel.afterReset : Travel where
  pulses := 0
  origin := 0
  direction := .ascending
  originState := .none
  motion := .standstill
  lastMove := .forward
  standstillTimer := none
  highLimit := false
  lowLimit := false

/-- No line present. -/
def noLines : ScanLines := ⟨false, false, false, false⟩

/-- The empty fold set. -/
def noArms : ArmSet := ⟨false, false, false, false, false, false, false, false⟩

/-- R30: the slot default. -/
def Pattern.slotDefault : Pattern where
  enabled := false
  anchor := 0
  cells := [{ value := noLines, mask := noLines }]
  action := .mark
  foldSet := noArms
  insertions := 0

/-- The table at the head of chapter 2 (R22). -/
def Scanner.afterReset : Scanner where
  active := false
  window := []
  front := none
  phase := .seeking
  guardSet := true
  body := none
  patterns := ⟨.slotDefault, .slotDefault, .slotDefault, .slotDefault, .slotDefault, .slotDefault⟩

/-- The table at the head of chapter 3 (R55). -/
def Queue.afterReset : Queue where
  records := []
  nextNumber := 1
  exhausted := false
  latch := none
  lastStop := .none
  motion := .standstill
  aside := none
  inPosition := none

/-- The table at the head of chapter 5 (R71). -/
def Context.afterReset : Context where
  state := .stopped
  dead := none
  armed := none
  current := none
  previous := none
  repeatLeft := 0
  stack := []

/-- The table at the head of chapter 6 (R95): every entry unset. -/
def Corrections.afterReset : Corrections where
  entries := []
  base := 0
  spacing := 5000
  window := none

/-- R131: an axis after reset, at the end of a release and at the emergency stop. -/
def AxisState.rest : AxisState where
  phase := .idle
  started := false
  startReading := none
  target := none
  gain := none
  tolerance := none
  timer := .stopped
  demand := 0

/-- R131. -/
def Drive.afterReset : Drive where
  axes := ⟨.rest, .rest, .rest, .rest⟩
  clampEngaged := false
  releaseTimer := none

/-- The empty unit flag set. -/
def noUnitFlags : UnitFlags := ⟨false, false, false, false⟩

/-- R149: a unit not decided, with all marks clear, depth reached 0 and no flags. -/
def UnitState.undecided : UnitState where
  role := .undecided
  atDepth := false
  squeezeEnded := false
  clear := false
  depthReached := 0
  flags := noUnitFlags

/-- The empty cause set. -/
def noCauses : CauseSet := ⟨false, false, false, false⟩

/-- The table of R149, with every output at its rest value (R171). -/
def Cycle.afterReset : Cycle where
  phase := .lockout
  causes := { noCauses with resetDown := true }
  mode := .manual
  current := none
  values := none
  insertionsDone := 0
  penetrationBegun := false
  stopRequested := .none
  folding := .notBegun
  units := ⟨.undecided, .undecided, .undecided, .undecided⟩
  phaseTimer := none
  lockoutRaise := false
  motion := .standstill
  vertical := ⟨.rest, .rest, .rest, .rest⟩
  squeeze := ⟨false, false, false, false⟩
  fold := noArms

/-- R185: the empty pending-event set. -/
def noEvents : PendingEvents := ⟨none, none, none, none, none, none⟩

/-- The table at the head of chapter 10 (R190), with the supervisor node as the authority holder. -/
def Port.afterReset (supervisor : Int) : Port where
  link := .on
  rx := []
  tx := []
  authority := supervisor
  halt := none
  stop := none
  events := noEvents
  seq := 0
  overrun := false
  resetPending := false

/-- Every block at its values after a reset (R12, R18, R22, R55, R56, R71, R95, R105, R131, R149, R190), in the part
state STARTING (R203), with the settings store and the input lines as given. -/
def Part.afterReset (store : Store) (lines : Lines) : Part where
  powered := true
  phase := .starting
  lines := lines
  travel := .afterReset
  history := .fill []
  scanner := .afterReset
  queue := .afterReset
  plan := []
  ctxH := .afterReset
  ctxV := .afterReset
  corr := .afterReset
  trim := 0
  drive := .afterReset
  cycle := .afterReset
  port := .afterReset store.working.supervisorNode
  store := store

/-- The input lines at reset: released, unfolded, low. DESIGN CHOICE: the manual gives no level (log entry 3). -/
def Lines.atReset : Lines where
  estop := false
  folds := noArms
  odo1 := false
  odo2 := false

/-- R195: the part as delivered holds the factory defaults with a valid checksum. -/
def deliveredCopy : NvCopy := Settings.factory.snapshot

/-- R203: the settings store after a power-on of the part as delivered: its copy is valid, so the status is LOADED. -/
def Store.delivered : Store where
  working := .factory
  copy := deliveredCopy
  save := none
  status := .loaded

/-- The part right after power-on, as delivered (R203), with no command waiting. -/
def State.reset : State where
  part := .afterReset .delivered .atReset
  pending := []

end Sys2Proof.Machine
end

