-- ==== Sys2Proof/Machine/Ops.lean ====
section
/-! DEFINITION. The named operations that every block uses: tables, the manual's arithmetic (00_scope.md), the chainage of
C and of the forward points (section 1.2), and the readings of the transducer channels (section 1.6). -/

namespace Sys2Proof.Machine
open Sys2Proof

/-! ### Small tables -/

/-- The value held for an axis. -/
def PerAxis.get {α : Type} (t : PerAxis α) : Axis → α
  | .line => t.line | .liftL => t.liftL | .liftR => t.liftR | .aux => t.aux

/-- The table with one axis's value replaced. -/
def PerAxis.set {α : Type} (t : PerAxis α) (x : Axis) (v : α) : PerAxis α :=
  match x with
  | .line => { t with line := v } | .liftL => { t with liftL := v }
  | .liftR => { t with liftR := v } | .aux => { t with aux := v }

/-- A function applied to every axis. -/
def PerAxis.map {α β : Type} (f : α → β) (t : PerAxis α) : PerAxis β := ⟨f t.line, f t.liftL, f t.liftR, f t.aux⟩

/-- A condition that holds of every axis. -/
def PerAxis.all {α : Type} (f : α → Bool) (t : PerAxis α) : Bool := f t.line && f t.liftL && f t.liftR && f t.aux

/-- A condition that holds of some axis. -/
def PerAxis.any {α : Type} (f : α → Bool) (t : PerAxis α) : Bool := f t.line || f t.liftL || f t.liftR || f t.aux

/-- A table by axis made from a function of the axis. -/
def PerAxis.make {α : Type} (f : Axis → α) : PerAxis α := ⟨f .line, f .liftL, f .liftR, f .aux⟩

/-- The value held for a unit. -/
def PerUnit.get {α : Type} (t : PerUnit α) : TampUnit → α
  | .lo => t.lo | .li => t.li | .ri => t.ri | .ro => t.ro

/-- The table with one unit's value replaced. -/
def PerUnit.set {α : Type} (t : PerUnit α) (u : TampUnit) (v : α) : PerUnit α :=
  match u with
  | .lo => { t with lo := v } | .li => { t with li := v } | .ri => { t with ri := v } | .ro => { t with ro := v }

/-- A table by unit made from a function of the unit. -/
def PerUnit.make {α : Type} (f : TampUnit → α) : PerUnit α := ⟨f .lo, f .li, f .ri, f .ro⟩

/-- The four units. -/
def allUnits : List TampUnit := [.lo, .li, .ri, .ro]

/-- The value held for an arm. -/
def PerArm.get {α : Type} (t : PerArm α) : Arm → α
  | .loF => t.loF | .loA => t.loA | .liF => t.liF | .liA => t.liA
  | .riF => t.riF | .riA => t.riA | .roF => t.roF | .roA => t.roA

/-- The table with one arm's value replaced. -/
def PerArm.set {α : Type} (t : PerArm α) (x : Arm) (v : α) : PerArm α :=
  match x with
  | .loF => { t with loF := v } | .loA => { t with loA := v } | .liF => { t with liF := v }
  | .liA => { t with liA := v } | .riF => { t with riF := v } | .riA => { t with riA := v }
  | .roF => { t with roF := v } | .roA => { t with roA := v }

/-- The eight arms in the order of the fold set (R192). -/
def allArms : List Arm := [.loF, .loA, .liF, .liA, .riF, .riA, .roF, .roA]

/-- The fore and the aft arm of a unit (section 9.1). -/
def armsOf : TampUnit → Arm × Arm
  | .lo => (.loF, .loA) | .li => (.liF, .liA) | .ri => (.riF, .riA) | .ro => (.roF, .roA)

/-- The union of two fold sets. -/
def ArmSet.union (x y : ArmSet) : ArmSet :=
  ⟨x.loF || y.loF, x.loA || y.loA, x.liF || y.liF, x.liA || y.liA,
   x.riF || y.riF, x.riA || y.riA, x.roF || y.roF, x.roA || y.roA⟩

/-- R32: the fold set holds all eight arms. -/
def ArmSet.isFull (x : ArmSet) : Bool := allArms.all x.get

/-- The fold set is empty. -/
def ArmSet.isEmpty (x : ArmSet) : Bool := allArms.all fun i => !x.get i

/-- The value held for a pattern slot number 1..6. -/
def PerSlot.get? {α : Type} (t : PerSlot α) (n : Nat) : Option α :=
  [t.s1, t.s2, t.s3, t.s4, t.s5, t.s6][n - 1]?.filter fun _ => n != 0

/-- The table with the value of a slot number 1..6 replaced. -/
def PerSlot.set {α : Type} (t : PerSlot α) (n : Nat) (v : α) : PerSlot α :=
  match n with
  | 1 => { t with s1 := v } | 2 => { t with s2 := v } | 3 => { t with s3 := v }
  | 4 => { t with s4 := v } | 5 => { t with s5 := v } | 6 => { t with s6 := v }
  | _ => t

/-- A function applied to every slot. -/
def PerSlot.map {α β : Type} (f : α → β) (t : PerSlot α) : PerSlot β :=
  ⟨f t.s1, f t.s2, f t.s3, f t.s4, f t.s5, f t.s6⟩

/-- The slots' values in ascending slot number. -/
def PerSlot.toList {α : Type} (t : PerSlot α) : List α := [t.s1, t.s2, t.s3, t.s4, t.s5, t.s6]

/-- What a numbered store holds at a number; an unlisted number reads as `dflt`. -/
def Table.read {α : Type} (dflt : α) (t : Table α) (k : Nat) : α :=
  match t with
  | [] => dflt
  | (i, v) :: rest => if i = k then v else Table.read dflt rest k

/-- A numbered store with one number written, in the canonical form: writing what an unlisted number reads as removes
the entry. -/
def Table.write {α : Type} [DecidableEq α] (dflt : α) (t : Table α) (k : Nat) (v : α) : Table α :=
  match t with
  | [] => if v = dflt then [] else [(k, v)]
  | (i, w) :: rest =>
    if k < i then (if v = dflt then (i, w) :: rest else (k, v) :: (i, w) :: rest)
    else if k = i then (if v = dflt then rest else (k, v) :: rest)
    else (i, w) :: Table.write dflt rest k v

/-- The canonical form of a numbered store. -/
def Table.wf {α : Type} [DecidableEq α] (dflt : α) : Table α → Bool
  | [] => true
  | (i, v) :: rest =>
    decide (v ≠ dflt) && (match rest with | [] => true | (j, _) :: _ => decide (i < j)) && Table.wf dflt rest

/-- R56: what a slot holds that nothing has written. -/
def emptySlot : Slot := { state := .empty, code := none, contents := none }

/-- R95: an entry with both halves unset. -/
def unsetEntry : CorrEntry := { lateral := none, vertical := none }

/-- A slot of plan memory. -/
def slotAt (plan : Table Slot) (k : Nat) : Slot := Table.read emptySlot plan k

/-- Plan memory with one slot replaced. -/
def setSlot (plan : Table Slot) (k : Nat) (v : Slot) : Table Slot := Table.write emptySlot plan k v

/-- An entry of the correction table. -/
def entryAt (entries : Table CorrEntry) (k : Nat) : CorrEntry := Table.read unsetEntry entries k

/-- The correction table with one entry replaced. -/
def setEntry (entries : Table CorrEntry) (k : Nat) (v : CorrEntry) : Table CorrEntry :=
  Table.write unsetEntry entries k v

/-! ### Arithmetic (00_scope.md) -/

/-- "Every division rounds half away from zero." -/
def roundDiv (n d : Int) : Int :=
  let q : Nat := (2 * n.natAbs + d.natAbs) / (2 * d.natAbs)
  if decide (n < 0) = decide (d < 0) then (q : Int) else -(q : Int)

/-- "Clamped to lo..hi." -/
def clampTo (lo hi x : Int) : Int := if x < lo then lo else if hi < x then hi else x

/-- "The direction sign is +1 when the working direction is ASCENDING and −1 when it is DESCENDING." -/
def dirSign : Direction → Int
  | .ascending => 1
  | .descending => -1

/-- How far x lies ahead of y in the working direction, in mm; negative behind. -/
def aheadBy (d : Direction) (x y : Int) : Int := dirSign d * (x - y)

/-- The greatest chainage, and the least without its sign (R6). -/
def maxChainage : Int := 99999999

/-- R6: within −99,999,999..+99,999,999 mm. -/
def inChainageRange (x : Int) : Bool := decide (-maxChainage ≤ x ∧ x ≤ maxChainage)

/-! ### Chainage (section 1.2) -/

/-- R3: the chainage that a pulse count gives: the origin chainage plus the direction sign times
round(P × pitch / 1000). -/
def chainageOf (t : Travel) (pitch pulses : Int) : Int :=
  t.origin + dirSign t.direction * roundDiv (pulses * pitch) 1000

/-- R3: the chainage of C, 0 while the origin state is NONE. -/
def chainageC (p : Part) : Int :=
  match p.travel.originState with
  | .none => 0
  | .set => chainageOf p.travel p.store.working.pitch p.travel.pulses

/-- R5: a point at an offset ahead of C. -/
def pointAhead (p : Part) (offset : Int) : Int := chainageC p + dirSign p.travel.direction * offset

/-- R5: the lining chord front. -/
def pointA (p : Part) : Int := pointAhead p p.store.working.a

/-- R5: the levelling chord front. -/
def pointAv (p : Part) : Int := pointAhead p p.store.working.av

/-- R5: the scanner point. -/
def scannerPoint (p : Part) : Int := pointAhead p p.store.working.scannerOffset

/-! ### Channel readings (section 1.6) -/

/-- R13: an input beyond the converter's range is delivered as the end count on that side. -/
def convert (level : Int) : Int := clampTo (-32768) 32767 level

/-- R13: the history with one count appended; it holds the 64 most recent counts. -/
def appendCount (h : List Int) (count : Int) : List Int := (h ++ [count]).drop (h.length - 63)

/-- R15: the sum of the counts divided by their number; 0 for no count. -/
def meanCount (counts : List Int) : Int := roundDiv counts.sum counts.length

/-- R14: round((count − zero) × sensitivity / 1024). -/
def calibrate (st : Settings) (ch : Channel) (count : Int) : Int :=
  roundDiv ((count - st.zero.get ch) * st.sensitivity.get ch) 1024

/-- R15, R16: the calibrated mean of some counts, 0 when there are none. -/
def calibratedMean (st : Settings) (ch : Channel) (counts : List Int) : Int :=
  if counts = [] then 0 else calibrate st ch (meanCount counts)

/-- R15: a channel's measurement mean, over its whole history. -/
def measurementMean (p : Part) (ch : Channel) : Int := calibratedMean p.store.working ch (p.history.get ch)

/-- R17: a channel is saturated for a measurement when a count of its history is an end count, or there is none. -/
def saturated (p : Part) (ch : Channel) : Bool :=
  let h := p.history.get ch
  h.isEmpty || h.any fun c => decide (c = -32768) || decide (c = 32767)

/-- R16: the 8 most recent counts, or all when there are fewer. -/
def recentCounts (h : List Int) : List Int := h.drop (h.length - 8)

/-- R16: a channel's drive value. -/
def driveValue (p : Part) (ch : Channel) : Int :=
  calibratedMean p.store.working ch (recentCounts (p.history.get ch))

/-- Section 9.1: the depth channel of a unit. -/
def depthChannel : TampUnit → Channel
  | .lo => .dlo | .li => .dli | .ri => .dri | .ro => .dro

/-- Section 9.1: the pressure channel of a unit's side. -/
def pressureChannel : TampUnit → Channel
  | .lo => .pl | .li => .pl | .ri => .pr | .ro => .pr

/-- Chapter 8: the channel an axis closes on. -/
def axisChannel : Axis → Channel
  | .line => .ln | .liftL => .lvl | .liftR => .lvr | .aux => .axs

/-- R147: a unit's depth. -/
def unitDepth (p : Part) (u : TampUnit) : Int := driveValue p (depthChannel u)

/-- R147: the clear height, 200 tenths. -/
def clearHeight : Int := 200

/-- R147: a unit is clear when its depth is 200 tenths or less. -/
def unitClear (p : Part) (u : TampUnit) : Bool := decide (unitDepth p u ≤ clearHeight)

/-- R147: every unit is clear. -/
def allClear (p : Part) : Bool := allUnits.all (unitClear p)

/-! ### Outputs -/

/-- R147, R148: the vertical demand on a unit's output, in percent: a lowering demand passes only at STANDSTILL with the
emergency stop line released. -/
def verticalOutput (p : Part) (u : TampUnit) : Int :=
  match p.cycle.vertical.get u with
  | .rest => 0
  | .raise => -100
  | .lower => if p.travel.motion = .standstill ∧ p.lines.estop = false then 100 else 0

/-! ### Commands on the part -/

/-- The next state, in which the part is changed and the waiting commands are as they were. -/
def State.withPart (s : State) (p : Part) : State := { s with part := p }

/-- An event of the powered part; without power nothing happens (R199, log entry 1). -/
def eventOf (s : State) (f : Part → Part) : Host.Outcome State Fault Refusal :=
  .next (s.withPart (if s.part.powered then f s.part else s.part))

end Sys2Proof.Machine
end

