-- ==== Sys2Proof/WellFormed.lean ====
section
/-! DEFINITION. Which commands the outside can send: the checks on operands that are not in their types. -/

namespace Sys2Proof

/-- R175: the data lengths that CAN FD allows. -/
def frameLengths : List Nat := [0, 1, 2, 3, 4, 5, 6, 7, 8, 12, 16, 20, 24, 32, 48, 64]

/-- R174, R175: a frame's identifier has 11 bits, or 29 when extended, and its data a length that CAN FD allows. -/
def BusFrame.wellFormed (f : BusFrame) : Bool :=
  decide (f.ident < if f.extended then 2 ^ 29 else 2 ^ 11) && frameLengths.contains f.data.length

/-- R195: a copy is 52 words and a checksum word. -/
def NvCopy.wellFormed (c : NvCopy) : Bool := decide (c.words.length = 52)

/-- A command whose operands the outside can send. -/
def Instr.wellFormed : Instr → Bool
  | .frameReceived f => f.wellFormed
  | .endOfSave c => c.wellFormed
  | .powerLoss c => c.wellFormed
  | _ => true

end Sys2Proof
end

