-- ==== Sys2Proof/Machine/Operands.lean ====
section
/-! DEFINITION. The operand forms: how the fields of a request are read from a frame's bytes and how the fields of replies
and reports are written into bytes (R175, R178), and the statuses of replies. -/

namespace Sys2Proof.Machine
open Sys2Proof

/-! ### Reading -/

/-- R175: a little-endian unsigned integer. -/
def readNat : List Byte → Nat
  | [] => 0
  | b :: rest => b.toNat + 256 * readNat rest

/-- R175: a little-endian integer in two's complement. -/
def readInt (bs : List Byte) : Int :=
  let n := readNat bs
  if 2 * n < 256 ^ bs.length then (n : Int) else (n : Int) - 256 ^ bs.length

/-- Some bytes of a field list. -/
def fieldBytes (fs : List Byte) (at_ len : Nat) : List Byte := (fs.drop at_).take len

/-- An unsigned field of a request. -/
def fieldNat (fs : List Byte) (at_ len : Nat) : Nat := readNat (fieldBytes fs at_ len)

/-- A signed field of a request. -/
def fieldInt (fs : List Byte) (at_ len : Nat) : Int := readInt (fieldBytes fs at_ len)

/-- R175: an optional field: a presence code, 0 for absent and 1 for present, and the field. The outer value is absent
for an unknown presence code. An absent field is not read (log entry 20). -/
def presence {α : Type} (code : Nat) (v : α) : Option (Option α) :=
  if code = 0 then some none else if code = 1 then some (some v) else none

/-- R175: byte 0 is the tag. Without data it is 0, as R177 gives it for the BAD_LENGTH of step 2; the BUSY of step 1 takes the
same. DESIGN CHOICE (log entry 30). -/
def Request.tag (r : Request) : Byte := r.data.headD 0

/-- R175: byte 1 is the field length F. -/
def Request.fieldLength (r : Request) : Nat := (r.data.getD 1 0).toNat

/-- R175: bytes 2 to F + 1 hold the fields. -/
def Request.fields (r : Request) : List Byte := fieldBytes r.data 2 r.fieldLength

/-- R177, step 2: the data has no room for a tag and a field length, or for the F field bytes. -/
def Request.tooShort (r : Request) : Bool := decide (r.data.length < 2 ∨ r.data.length < r.fieldLength + 2)

/-! ### Writing -/

/-- R175: a little-endian integer of n bytes, in two's complement. -/
def writeInt : Nat → Int → List Byte
  | 0, _ => []
  | n + 1, x => BitVec.ofInt 8 x :: writeInt n (x / 256)

/-- One byte. -/
def byte (n : Nat) : Byte := BitVec.ofNat 8 n

/-- R175: an optional field under its presence code; an absent field holds 0. -/
def writeOptional (len : Nat) (v : Option Int) : List Byte :=
  match v with
  | none => byte 0 :: writeInt len 0
  | some x => byte 1 :: writeInt len x

/-- R175: the allowed data length that a frame of n bytes is padded to. -/
def paddedLength (n : Nat) : Nat := (frameLengths.find? (n ≤ ·)).getD 64

/-- R174: an identifier is the message kind × 16 + a node number. -/
def identOf (kind : Nat) (node : Int) : Int := kind * 16 + node

/-- R174, R175: the message of a kind from the part node, with these bytes of data. -/
def messageOf (kind : Nat) (node : Int) (data : List Byte) : Message where
  ident := identOf kind node
  data := data
  length := paddedLength data.length

/-! ### Replies (R178) -/

/-- R178: the status of a reply. -/
inductive Status where
  | ok | clamped | busy | badState | badField | badLength | unknownKind | notAuthorised | notOwner | noWindow
  | slotBusy | storeFault
  deriving DecidableEq, Repr

/-- R178: the status codes. -/
def Status.code : Status → Nat
  | .ok => 0 | .clamped => 1 | .busy => 2 | .badState => 3 | .badField => 4 | .badLength => 5
  | .unknownKind => 6 | .notAuthorised => 7 | .notOwner => 8 | .noWindow => 9 | .slotBusy => 10 | .storeFault => 11

/-- R178: only OK and CLAMPED replies carry fields. -/
def Status.isTaken : Status → Bool
  | .ok => true | .clamped => true | _ => false

/-- What a block answers to a request: the part afterwards, the status and the reply fields. -/
structure Answer where
  part : Part
  status : Status
  fields : List Byte

/-- The request is taken: OK, with these reply fields. -/
def Answer.ok (p : Part) (fields : List Byte := []) : Answer := ⟨p, .ok, fields⟩

/-- The request is refused and changes nothing. -/
def Answer.refuse (p : Part) (st : Status) : Answer := ⟨p, st, []⟩

/-- R178: the data of a reply: tag, status, field length, fields; without fields unless the status is OK or CLAMPED. -/
def replyData (tag : Byte) (st : Status) (fields : List Byte) : List Byte :=
  let fs := if st.isTaken then fields else []
  tag :: byte st.code :: byte fs.length :: fs

/-- R174, R178: a reply has the kind of its request + 64. -/
def replyMessage (node : Int) (r : Request) (st : Status) (fields : List Byte) : Message :=
  messageOf (r.kind + 64) node (replyData r.tag st fields)

end Sys2Proof.Machine
end

