-- ==== Sys2Proof/Machine/Flags.lean ====
section
/-! DEFINITION. The code values of the coded fields and the bit positions of the flag sets, as the bus carries them
(R191, R192, R193). -/

namespace Sys2Proof.Machine
open Sys2Proof

/-- A flag set as a number, its first flag in bit 0. -/
def bitsOf : List Bool → Nat
  | [] => 0
  | b :: rest => (if b then 1 else 0) + 2 * bitsOf rest

/-- A flag as a byte value, 0 or 1. -/
def bit (b : Bool) : Nat := if b then 1 else 0

/-- A flag of a byte. -/
def testBit (n i : Nat) : Bool := n.testBit i

/-! ### R192 -/

/-- R192: the class code. -/
def SleeperClass.code : SleeperClass → Nat
  | .standard => 0 | .wide => 1 | .longBody => 2

/-- R192: the skip cause code, 0 for none. -/
def skipCode : Option SkipCause → Nat
  | none => 0 | some .pattern => 1 | some .longBody => 2 | some .allFolded => 3 | some .manual => 4

/-- R192: the failure cause code, 0 for absent. -/
def failureCode : Option FailureCause → Nat
  | none => 0 | some .stopped => 1 | some .travelFault => 2 | some .estop => 3 | some .unitStuck => 4

/-- R192: the record state code. -/
def RecordState.code : RecordState → Nat
  | .pending => 0 | .inCycle => 1 | .tamped => 2 | .skipped => 3 | .passed => 4 | .failed => 5

/-- R192: the target flags, bits 0 to 17. -/
def TargetFlags.bits (f : TargetFlags) : Nat :=
  bitsOf [f.noPlanH, f.noPlanV, f.heldH, f.heldV, f.uncorrectedH, f.uncorrectedV, f.stepLimit, f.lineLimit, f.lnFault,
    f.refSwapped, f.levelFault, f.xlFault, f.lowSpotL, f.lowSpotR, f.liftLimitL, f.liftLimitR, f.lowSpotAux,
    f.liftLimitAux]

/-- R128: each computation begins with an empty flag set. -/
def noTargetFlags : TargetFlags :=
  ⟨false, false, false, false, false, false, false, false, false, false, false, false, false, false, false, false,
   false, false⟩

/-- R192: the unit flags. -/
def UnitFlags.bits (f : UnitFlags) : Nat := bitsOf [f.folded, f.foldFault, f.penShort, f.squeezeTimed]

/-- R192: the fold set, bits 0 to 7 in the order of the arms. -/
def ArmSet.bits (x : ArmSet) : Nat := bitsOf (allArms.map x.get)

/-- R192: the fold set that a byte holds. -/
def armsOfByte (n : Nat) : ArmSet :=
  ⟨testBit n 0, testBit n 1, testBit n 2, testBit n 3, testBit n 4, testBit n 5, testBit n 6, testBit n 7⟩

/-- R192: the matched pattern set, bits 0 to 5. -/
def SlotSet.bits (x : SlotSet) : Nat := bitsOf x.toList

/-- R175: four scanner lines in a half byte, SE, FL, FR and CM from the lowest bit. -/
def ScanLines.bits (x : ScanLines) : Nat := bitsOf [x.se, x.fl, x.fr, x.cm]

/-- R175: the four scanner lines in the four bits of a byte from bit i. -/
def linesOfByte (n i : Nat) : ScanLines := ⟨testBit n i, testBit n (i + 1), testBit n (i + 2), testBit n (i + 3)⟩

/-! ### R193 -/

/-- R193: working direction. -/
def Direction.code : Direction → Nat
  | .ascending => 0 | .descending => 1

/-- R193: the working direction that a code names. -/
def directionOfCode : Nat → Option Direction
  | 0 => some .ascending | 1 => some .descending | _ => none

/-- R193: origin state. -/
def OriginState.code : OriginState → Nat
  | .none => 0 | .set => 1

/-- R193: motion state. -/
def Motion.code : Motion → Nat
  | .standstill => 0 | .moving => 1

/-- R193: last movement direction. -/
def Move.code : Move → Nat
  | .forward => 0 | .backward => 1

/-- R193: context. -/
def ContextId.code : ContextId → Nat
  | .h => 0 | .v => 1

/-- R193: the context that a code names. -/
def contextOfCode : Nat → Option ContextId
  | 0 => some .h | 1 => some .v | _ => none

/-- R193: context state. -/
def ContextState.code : ContextState → Nat
  | .stopped => 0 | .armed => 1 | .running => 2 | .starved => 3 | .dead => 4

/-- R193: dead code, 0 for absent. -/
def deadCode : Option DeadCode → Nat
  | none => 0 | some .emptySlot => 1 | some .wrongKind => 2 | some .stackOver => 3 | some .stackUnder => 4
  | some .flowLoop => 5

/-- R193: slot state. -/
def SlotState.code : SlotState → Nat
  | .empty => 0 | .loaded => 1 | .inUse => 2 | .done => 3

/-- R193: completion code, 0 for absent. -/
def completionCode : Option CompletionCode → Nat
  | none => 0 | some .traversed => 1 | some .cut => 2 | some .executed => 3 | some .repeatCancelled => 4

/-- R193: cycle state. -/
def CyclePhase.code : CyclePhase → Nat
  | .idle => 0 | .positioning => 1 | .penetrating => 2 | .squeezing => 3 | .raising => 4 | .releasing => 5
  | .lockout => 6

/-- R193: cause set, bit 0 TRAVEL_FAULT, bit 1 ESTOP, bit 2 UNIT_STUCK, bit 3 RESET_DOWN. -/
def CauseSet.bits (c : CauseSet) : Nat := bitsOf [c.travelFault, c.estop, c.unitStuck, c.resetDown]

/-- Whether a cause is held. -/
def CauseSet.has (c : CauseSet) : Cause → Bool
  | .travelFault => c.travelFault | .estop => c.estop | .unitStuck => c.unitStuck | .resetDown => c.resetDown

/-- The set with a cause added. -/
def CauseSet.add (c : CauseSet) : Cause → CauseSet
  | .travelFault => { c with travelFault := true } | .estop => { c with estop := true }
  | .unitStuck => { c with unitStuck := true } | .resetDown => { c with resetDown := true }

/-- R193: a cause added is coded as its bit alone. -/
def Cause.bits (c : Cause) : Nat := (noCauses.add c).bits

/-- R193: mode. -/
def Mode.code : Mode → Nat
  | .manual => 0 | .auto => 1

/-- R193: the mode that a code names. -/
def modeOfCode : Nat → Option Mode
  | 0 => some .manual | 1 => some .auto | _ => none

/-- R193: store status. -/
def StoreStatus.code : StoreStatus → Nat
  | .loaded => 0 | .defaulted => 1 | .saving => 2 | .saved => 3 | .fault => 4

/-- R193: the halt latch, 0 clear, otherwise the latched sleeper number. -/
def latchCode (l : Option Nat) : Int := l.getD 0

/-- R193: pattern action kind. -/
def PatternAction.code : PatternAction → Nat
  | .mark => 0 | .fold => 1 | .skip => 2 | .halt => 3

/-- R193: the action kind that a code names. -/
def actionOfCode : Nat → Option PatternAction
  | 0 => some .mark | 1 => some .fold | 2 => some .skip | 3 => some .halt | _ => none

/-- R193: the window mode that a code names. -/
def windowModeOfCode : Nat → Option WindowMode
  | 0 => some .write | 1 => some .edit | _ => none

/-- R191: the reference rail code. -/
def ReferenceRail.code : ReferenceRail → Nat
  | .left => 0 | .right => 1 | .low => 2

/-- R191: the reference rail that a code names. -/
def railOfCode : Nat → Option ReferenceRail
  | 0 => some .left | 1 => some .right | 2 => some .low | _ => none

/-- R186: the EVENT kind codes. -/
def EventKind.code : EventKind → Nat
  | .started => 1 | .planState => 2 | .scanOverflow => 3 | .chainageLimit => 4 | .lockout => 5 | .storeDone => 6

end Sys2Proof.Machine
end

