-- ==== Sys2Proof/Machine/Report.lean ====
section
/-! DEFINITION. Reports: their layouts (R184 to R186, R192), the pending reports that the port holds, and the port's
report arbiter (R183). -/

namespace Sys2Proof.Machine
open Sys2Proof

/-! ### Layouts -/

/-- R49, R193: the reason code of a stop point. -/
def StopPoint.reasonCode : StopPoint → Nat
  | .none => 0 | .tamp _ => 1 | .halt _ => 2

/-- The sleeper a stop point names. -/
def StopPoint.sleeper : StopPoint → Option Nat
  | .none => Option.none | .tamp n => some n | .halt n => some n

/-- R184: the fields of a HALT, the sleeper number and the centre chainage. -/
def haltFields (r : HaltReport) : List Byte := writeInt 4 r.sleeper ++ writeInt 4 r.centre

/-- R184: the fields of a STOP POINT, the reason and, except with NONE, the sleeper number and the centre chainage with
its presence code (log entry 21). -/
def stopFields (r : StopReport) : List Byte :=
  match r.stop.sleeper with
  | none => [byte r.stop.reasonCode]
  | some n => byte r.stop.reasonCode :: writeInt 4 n ++ writeOptional 4 r.centre

/-- R185: the EVENT kind of an event. -/
def Event.kind : Event → EventKind
  | .started .. => .started
  | .planState .. => .planState
  | .scanOverflow _ => .scanOverflow
  | .chainageLimit .. => .chainageLimit
  | .lockout .. => .lockout
  | .storeDone _ => .storeDone

/-- R185: the details of an event, in the order of the table. -/
def eventDetails : Event → List Byte
  | .started st ph cs => [byte st.code, byte ph.code, byte cs.bits]
  | .planState ctx st dead slot =>
    [byte ctx.code, byte st.code, byte (deadCode dead)] ++ writeOptional 2 (slot.map Int.ofNat)
  | .scanOverflow c => writeInt 4 c
  | .chainageLimit high c => byte (bit high) :: writeInt 4 c
  | .lockout cs added n => [byte cs.bits, byte added.bits] ++ writeOptional 4 (n.map Int.ofNat)
  | .storeDone ok => [byte (if ok then Status.ok.code else Status.storeFault.code)]

/-- R186: an EVENT's fields begin with the event kind code and the merged count, followed by the details. -/
def eventFields (e : PendingEvent) : List Byte :=
  byte e.event.kind.code :: byte e.merged :: eventDetails e.event

/-- R192: the targets bytes 21 to 31, all 0 when absent. -/
def targetBytes (t : Option Targets) : List Byte :=
  match t with
  | none => writeInt 11 0
  | some t =>
    writeInt 2 t.shift ++ writeInt 2 t.liftL ++ writeInt 2 t.liftR ++ writeInt 2 (t.aux.getD 0) ++
      writeInt 3 t.flags.bits

/-- R192: the result bytes 32 to 60, all 0 when absent. -/
def resultBytes (r : Option CycleResult) : List Byte :=
  match r with
  | none => writeInt 29 0
  | some r =>
    ([r.residuals.line, r.residuals.liftL, r.residuals.liftR, r.residuals.aux].flatMap fun x => writeInt 3 (x.getD 0)) ++
      ([r.depths.lo, r.depths.li, r.depths.ri, r.depths.ro].flatMap fun x => writeInt 3 x) ++
      byte r.insertionsDone ::
      [r.unitFlags.lo, r.unitFlags.li, r.unitFlags.ri, r.unitFlags.ro].map fun f => byte f.bits

/-- R192: byte 20, which parts are present. -/
def partsPresent (r : SleeperRecord) : Nat :=
  bitsOf [r.targets.isSome, (r.targets.bind (·.aux)).isSome, r.result.isSome,
    (r.result.bind (·.residuals.aux)).isSome]

/-- R192: the 59 field bytes of a sleeper record. -/
def recordFields (r : SleeperRecord) : List Byte :=
  let c := r.candidate
  writeInt 4 r.number ++ writeInt 4 c.centre ++
    [byte c.length, byte c.sleeperClass.code,
     byte (bitsOf [c.seen.fl, c.seen.fr, c.seen.cm, c.unfastened, c.skip.isSome, c.halt]),
     byte (skipCode c.skip), byte (SlotSet.bits c.matched), byte (ArmSet.bits c.foldSet), byte c.insertions,
     byte r.state.code, byte (failureCode r.failure), byte r.tampCount, byte (partsPresent r)] ++
    targetBytes r.targets ++ resultBytes r.result

/-! ### The transmit queue and the arbiter -/

/-- R183: at least two places in the transmit queue are free, and no PART RESET is waiting to take effect (R204). -/
def canAdmit (p : Part) : Bool := decide (p.port.tx.length + 2 ≤ 8) && !p.port.resetPending

/-- R186: a report enters the transmit queue with the report sequence, which then goes up by 1, wrapping from 255 to
0. -/
def pushReport (p : Part) (kind : Nat) (fields : List Byte) : Part :=
  let m := messageOf kind p.store.working.partNode (byte p.port.seq :: byte fields.length :: fields)
  { p with port := { p.port with tx := p.port.tx ++ [m], seq := (p.port.seq + 1) % 256 } }

/-- R185: the entry of a kind. -/
def PendingEvents.get (s : PendingEvents) : EventKind → Option PendingEvent
  | .started => s.started
  | .planState => s.planState
  | .scanOverflow => s.scanOverflow
  | .chainageLimit => s.chainageLimit
  | .lockout => s.lockout
  | .storeDone => s.storeDone

/-- R185: the set with the entry of a kind replaced or removed. -/
def PendingEvents.put (s : PendingEvents) (k : EventKind) (e : Option PendingEvent) : PendingEvents :=
  match k with
  | .started => { s with started := e }
  | .planState => { s with planState := e }
  | .scanOverflow => { s with scanOverflow := e }
  | .chainageLimit => { s with chainageLimit := e }
  | .lockout => { s with lockout := e }
  | .storeDone => { s with storeDone := e }

/-- R183: the order in which the arbiter takes the EVENT kinds. -/
def eventOrder : List EventKind := [.started, .lockout, .planState, .chainageLimit, .scanOverflow, .storeDone]

/-- R183: the sources of reports that are handed to the port. -/
inductive ReportSource where
  | halt
  | stopPoint
  | event (k : EventKind)
  deriving DecidableEq, Repr

/-- R183: of the reports handed to the port and still waiting, the one that the arbiter admits first. -/
def firstWaiting (port : Port) : Option ReportSource :=
  if port.halt.isSome then some .halt
  else if port.stop.isSome then some .stopPoint
  else (eventOrder.find? fun k => (port.events.get k).isSome).map .event

/-- R184, R186: the pending HALT enters the transmit queue as report kind 114. -/
def admitHalt (p : Part) : Part :=
  match p.port.halt with
  | none => p
  | some r =>
    let q := pushReport p 114 (haltFields r)
    { q with port := { q.port with halt := none } }

/-- R184, R186: the pending STOP POINT enters the transmit queue as report kind 112. -/
def admitStop (p : Part) : Part :=
  match p.port.stop with
  | none => p
  | some r =>
    let q := pushReport p 112 (stopFields r)
    { q with port := { q.port with stop := none } }

/-- R185, R186: a pending-event entry enters the transmit queue as report kind 115. -/
def admitEvent (p : Part) (k : EventKind) : Part :=
  match p.port.events.get k with
  | none => p
  | some e =>
    let q := pushReport p 115 (eventFields e)
    { q with port := { q.port with events := q.port.events.put k none } }

/-- R183: one waiting report is admitted. -/
def admitSource (p : Part) : ReportSource → Part
  | .halt => admitHalt p
  | .stopPoint => admitStop p
  | .event k => admitEvent p k

/-- R183: while two places are free and a report handed on waits, the port admits one and tests again. Each admission
takes a place, so eight rounds are enough. -/
def admitWaiting : Nat → Part → Part
  | 0, p => p
  | n + 1, p =>
    if canAdmit p then
      match firstWaiting p.port with
      | none => p
      | some s => admitWaiting n (admitSource p s)
    else p

/-- R183: "A report handed to the port while two places are free is admitted in the event that hands it on." The arbiter takes
the reports that wait in its order, those that waited before the event among them, so in a request that hands on a report one
that waited already may take the place ahead of the reply. DESIGN CHOICE (log entry 29). -/
def afterHandOn (p : Part) : Part := admitWaiting 8 p

/-- R185: an event joins the pending-event set, replacing the details of an entry of its kind and raising its merged
count, which saturates at 255. -/
def holdEvent (p : Part) (e : Event) : Part :=
  let merged := match p.port.events.get e.kind with
    | none => 1
    | some old => min 255 (old.merged + 1)
  { p with port := { p.port with events := p.port.events.put e.kind (some { event := e, merged := merged }) } }

/-- R185, R183: an EVENT is handed to the port. -/
def handEvent (p : Part) (e : Event) : Part := afterHandOn (holdEvent p e)

/-- R184: a HALT is handed to the port and replaces any pending HALT. -/
def handHalt (p : Part) (r : HaltReport) : Part :=
  afterHandOn { p with port := { p.port with halt := some r } }

/-- R184: a STOP POINT is handed to the port and replaces any pending STOP POINT. -/
def handStop (p : Part) (r : StopReport) : Part :=
  afterHandOn { p with port := { p.port with stop := some r } }

end Sys2Proof.Machine
end

