-- ==== Sys2Proof/Machine/Queue.lean ====
section
/-! DEFINITION. The sleeper queue (chapter 3): recording, the cycle's changes of a record, passing, history, the record in
position, the halt latch and the stop point. -/

namespace Sys2Proof.Machine
open Sys2Proof

/-- Section 3.2: a record is completed when it is TAMPED, SKIPPED, PASSED or FAILED. -/
def RecordState.isCompleted : RecordState → Bool
  | .tamped => true | .skipped => true | .passed => true | .failed => true | _ => false

/-- Section 3.2: a completed record whose reported flag is set. -/
def SleeperRecord.isReported (r : SleeperRecord) : Bool := r.state.isCompleted && r.reported

/-- Section 3.2: a completed record whose reported flag is clear. -/
def SleeperRecord.isUnreported (r : SleeperRecord) : Bool := r.state.isCompleted && !r.reported

/-- The record with a number. -/
def recordAt (rs : List SleeperRecord) (n : Nat) : Option SleeperRecord := rs.find? fun r => r.number == n

/-- The records with the one of a number changed. -/
def changeRecord (rs : List SleeperRecord) (n : Nat) (f : SleeperRecord → SleeperRecord) : List SleeperRecord :=
  rs.map fun r => if r.number = n then f r else r

/-- R41, R43: the records without the lowest-numbered reported one. -/
def dropLowestReported : List SleeperRecord → List SleeperRecord
  | [] => []
  | r :: rest => if r.isReported then rest else r :: dropLowestReported rest

/-- R43: at most four reported records are kept; of five the lowest-numbered is removed. -/
def trimHistory (rs : List SleeperRecord) : List SleeperRecord :=
  if 4 < (rs.filter SleeperRecord.isReported).length then dropLowestReported rs else rs

/-- The part with its records replaced. -/
def Part.withRecords (p : Part) (rs : List SleeperRecord) : Part := { p with queue := { p.queue with records := rs } }

/-! ### Stop point (section 3.7) -/

/-- R49: the target is the lowest-numbered PENDING record with its skip flag clear whose centre is not behind C by more
than the position tolerance. -/
def stopTarget (p : Part) : Option SleeperRecord :=
  p.queue.records.find? fun r =>
    decide (r.state = .pending) && r.candidate.skip.isNone &&
      decide (0 ≤ aheadBy p.travel.direction r.candidate.centre (chainageC p) + p.store.working.positionTolerance)

/-- R49: the stop point. -/
def stopPointOf (p : Part) : StopPoint :=
  match p.queue.latch, stopTarget p with
  | none, some r => .tamp r.number
  | none, none => .none
  | some h, some r => if h ≤ r.number then .halt h else .tamp r.number
  | some h, none => .halt h

/-- R50: when the stop point differs from the last one handed on, it is handed to the port. Whether its centre is present is
decided here, when it is handed on, and not when the report is admitted. DESIGN CHOICE (log entry 31). -/
def testStopPoint (p : Part) : Part :=
  let sp := stopPointOf p
  if sp = p.queue.lastStop then p
  else
    let centre := (sp.sleeper.bind (recordAt p.queue.records)).map fun r => r.candidate.centre
    handStop { p with queue := { p.queue with lastStop := sp } } { stop := sp, centre := centre }

/-! ### Position (section 3.5) -/

/-- R45: a record in position nearer to C than the best so far replaces it; of two equally near, the lower-numbered
stays. -/
def nearer (c tolerance : Int) (best : Option SleeperRecord) (r : SleeperRecord) : Option SleeperRecord :=
  let dist := (r.candidate.centre - c).natAbs
  if (dist : Int) ≤ tolerance then
    match best with
    | none => some r
    | some b => if dist < (b.candidate.centre - c).natAbs then some r else some b
  else best

/-- R45: the record in position; none while the origin state is NONE. -/
def recordInPosition (p : Part) : Option SleeperRecord :=
  match p.travel.originState with
  | .none => none
  | .set => p.queue.records.foldl (nearer (chainageC p) p.store.working.positionTolerance) none

/-- R45, R46: the answer is renewed; the Boolean says whether an IN_POSITION is handed on: at STANDSTILL, when the answer
changes to a record. -/
def renewInPosition (p : Part) : Part × Bool :=
  let now := (recordInPosition p).map (·.number)
  ({ p with queue := { p.queue with inPosition := now } },
   decide (p.queue.motion = .standstill) && now.isSome && decide (now ≠ p.queue.inPosition))

/-- R44: a record has passed when C lies ahead of its centre by more than the pass margin. -/
def hasPassed (p : Part) (r : SleeperRecord) : Bool :=
  decide (aheadBy p.travel.direction (chainageC p) r.candidate.centre > p.store.working.passMargin)

/-- R44: a PENDING record that has passed becomes SKIPPED or PASSED, is then unreported, and the stop point is
tested. -/
def passRecord (p : Part) (n : Nat) : Part :=
  match recordAt p.queue.records n with
  | none => p
  | some r =>
    if r.state = .pending ∧ hasPassed p r = true then
      let st : RecordState := if r.candidate.skip.isSome then .skipped else .passed
      testStopPoint (p.withRecords (changeRecord p.queue.records n fun r => { r with state := st, reported := false }))
    else p

/-- R44: at an advance each record is tested, in ascending number. -/
def passRecords (p : Part) : Part := (p.queue.records.map (·.number)).foldl passRecord p

/-! ### Recording (section 3.3) -/

/-- R37: the record made from a candidate. -/
def newRecord (number : Nat) (c : Candidate) : SleeperRecord where
  number := number
  candidate := c
  state := .pending
  failure := none
  tampCount := 0
  targets := none
  result := none
  reported := false

/-- R37: the greatest sleeper number. -/
def lastNumber : Nat := 4294967295

/-- R42: a made record with the halt flag sets a clear latch and hands on a HALT report. -/
def haltStep (p : Part) (r : SleeperRecord) : Part :=
  if r.candidate.halt ∧ p.queue.latch = none then
    handHalt { p with queue := { p.queue with latch := some r.number } }
      { sleeper := r.number, centre := r.candidate.centre }
  else p

/-- R41, steps 2 and 3: the records with room for one more, or none when there is no room. -/
def roomForRecord (rs : List SleeperRecord) : Option (List SleeperRecord) :=
  if rs.length < 16 then some rs
  else if rs.any SleeperRecord.isReported then some (dropLowestReported rs)
  else none

/-- R41: a candidate from the scanner is recorded or lost. -/
def recordCandidate (p : Part) (c : Candidate) : Part :=
  let q := p.queue
  match if q.exhausted then none else roomForRecord q.records with
  | none => handEvent p (.scanOverflow c.centre)
  | some rs =>
    let r := newRecord q.nextNumber c
    let full := decide (q.nextNumber = lastNumber)
    let p := { p with queue := { q with
      records := rs ++ [r]
      nextNumber := if full then lastNumber else q.nextNumber + 1
      exhausted := full } }
    let p := passRecord (haltStep p r) r.number
    testStopPoint (renewInPosition p).1

/-! ### The cycle's changes of a record (R39) -/

/-- R39: a cycle start on a record. -/
def startRecord (p : Part) (n : Nat) : Part :=
  match recordAt p.queue.records n with
  | none => p
  | some r =>
    let kept : Aside := { state := r.state, tampCount := r.tampCount, reported := r.reported, failure := r.failure }
    { p with queue := { p.queue with
      aside := some kept
      records := changeRecord p.queue.records n fun r =>
        { r with state := .inCycle, reported := false, failure := none, tampCount := min 15 (r.tampCount + 1) } } }

/-- R39: a cycle on a record has ended, TAMPED or FAILED, with a result when the cycle reached the end of a release; the
aside copy is discarded and the stop point is tested. -/
def finishRecord (p : Part) (n : Nat) (st : RecordState) (cause : Option FailureCause) (result : Option CycleResult) :
    Part :=
  testStopPoint { p with queue := { p.queue with
    aside := none
    records := changeRecord p.queue.records n fun r =>
      { r with state := st, failure := cause, reported := false,
               result := match result with | none => r.result | some x => some x } } }

/-- R39, R43: a cycle abandoned before penetration: what was kept aside is put back, and with a fifth reported record
the lowest-numbered is removed. -/
def putBackRecord (p : Part) (n : Nat) : Part :=
  match p.queue.aside with
  | none => p
  | some k =>
    testStopPoint { p with queue := { p.queue with
      aside := none
      records := trimHistory (changeRecord p.queue.records n fun r =>
        { r with state := k.state, tampCount := k.tampCount, reported := k.reported, failure := k.failure }) } }

/-- R39, R117: the lining shift of the record with the highest number below n that has a targets part. -/
def previousShift (rs : List SleeperRecord) (n : Nat) : Option Int :=
  (rs.reverse.findSome? fun r => if r.number < n then r.targets else none).map (·.shift)

/-- R47: the latch blocks the latched sleeper and every sleeper after it. -/
def blockedByLatch (q : Queue) (n : Nat) : Bool :=
  match q.latch with
  | none => false
  | some h => decide (h ≤ n)

/-- R54: the lowest-numbered unreported record. -/
def offeredRecord (q : Queue) : Option SleeperRecord := q.records.find? SleeperRecord.isUnreported

/-- R54, R43: the SLEEPER DONE of a record is accepted: the report is built from the record as it stands, the reported
flag is set, and history is trimmed. -/
def acceptRecord (p : Part) (r : SleeperRecord) : Part :=
  let q := pushReport p 113 (recordFields r)
  q.withRecords (trimHistory (changeRecord q.queue.records r.number fun r => { r with reported := true }))

end Sys2Proof.Machine
end

