-- ==== Sys2Proof/Machine/Drive.lean ====
section
/-! DEFINITION. The lift and lining drive (chapter 8): MOVE START, control updates, HOLD, RELEASE, the end of the release and
the emergency stop. -/

namespace Sys2Proof.Machine
open Sys2Proof

/-- The part with the drive replaced. -/
def Part.withDrive (p : Part) (d : Drive) : Part := { p with drive := d }

/-- The part with one axis replaced. -/
def Part.setAxis (p : Part) (x : Axis) (a : AxisState) : Part :=
  { p with drive := { p.drive with axes := p.drive.axes.set x a } }

/-- An axis is started. -/
def Drive.anyStarted (d : Drive) : Bool := d.axes.any (·.started)

/-- R133: the error of an axis at a reading, the motion still to be made in the positive direction. -/
def axisError (x : Axis) (target reading : Int) : Int :=
  match x with
  | .aux => target - reading
  | _ => reading - target

/-- R135: the demand of a MOVING axis: round(gain × error / 10) clamped to −100..+100, and floored at 0 for LIFT-L, LIFT-R
and AUX. -/
def movingDemand (x : Axis) (gain error : Int) : Int :=
  let d := clampTo (-100) 100 (roundDiv (gain * error) 10)
  match x with
  | .line => d
  | _ => max 0 d

/-- R134 to R138: the control update of an axis at a reading. -/
def updatedAxis (x : Axis) (a : AxisState) (reading : Int) : AxisState :=
  let error := axisError x (a.target.getD 0) reading
  if (error.natAbs : Int) ≤ a.tolerance.getD 0 then { a with phase := .settled, demand := 0 }
  else if a.phase = .settled ∧ a.timer = .expired then { a with phase := .short, demand := 0 }
  else { a with phase := .moving, demand := movingDemand x (a.gain.getD 0) error }

/-- R134: only a started axis that is MOVING or SETTLED takes updates. -/
def takesUpdates (a : AxisState) : Bool := a.started && (decide (a.phase = .moving) || decide (a.phase = .settled))

/-- R139: an axis that is SETTLED or SHORT, or is not started. -/
def axisDone (a : AxisState) : Bool := !a.started || decide (a.phase = .settled) || decide (a.phase = .short)

/-- R139: a POSITIONED is handed on when a started axis enters SETTLED or SHORT and every started axis is then SETTLED or
SHORT. -/
def positionedBy (before after : AxisState) (d : Drive) : Bool :=
  after.started && (decide (after.phase = .settled) || decide (after.phase = .short)) &&
    decide (after.phase ≠ before.phase) && d.axes.all axisDone

/-- R134: an axis takes the control update of a new sample of its channel; the Boolean says whether a POSITIONED is handed
on. -/
def updateAxis (p : Part) (x : Axis) : Part × Bool :=
  let a := p.drive.axes.get x
  if takesUpdates a then
    let b := updatedAxis x a (driveValue p (axisChannel x))
    let q := p.setAxis x b
    (q, positionedBy a b q.drive)
  else (p, false)

/-- R138: the move timer of an axis runs out. -/
def expireMove (p : Part) (x : Axis) : Part × Bool :=
  let a := p.drive.axes.get x
  match a.timer with
  | .running _ =>
    let b := if a.phase = .moving then { a with phase := .short, demand := 0, timer := .expired }
             else { a with timer := .expired }
    let q := p.setAxis x b
    (q, positionedBy a b q.drive)
  | _ => (p, false)

/-- R131: the gain of an axis. -/
def gainOf (st : Settings) : Axis → Int
  | .line => st.gainLine
  | .liftL => st.gainLiftL
  | .liftR => st.gainLiftR
  | .aux => st.gainAux

/-- R132: how far an axis is to move, or none when it does not move. -/
def axisTravel (t : Targets) : Axis → Option Int
  | .line => some t.shift
  | .liftL => some t.liftL
  | .liftR => some t.liftR
  | .aux => t.aux

/-- R132: the target reading of an axis from its start reading. -/
def targetReading (x : Axis) (start travel : Int) : Int :=
  match x with
  | .aux => start + travel
  | _ => start - travel

/-- R132: an axis as MOVE START leaves it: set up, and updated once on its start reading. -/
def startedAxis (p : Part) (t : Targets) (x : Axis) : AxisState :=
  match axisTravel t x with
  | none => .rest
  | some travel =>
    let st := p.store.working
    let start := driveValue p (axisChannel x)
    updatedAxis x
      { phase := .moving
        started := true
        startReading := some start
        target := some (targetReading x start travel)
        gain := some (gainOf st x)
        tolerance := some st.settleTolerance
        timer := .running st.moveTimeout
        demand := 0 }
      start

/-- R144, R142: every axis IDLE, with the release timer stopped. -/
def restAxes (d : Drive) : Drive := { d with axes := ⟨.rest, .rest, .rest, .rest⟩, releaseTimer := none }

/-- R132, R139, R145: MOVE START for the targets of the record in cycle. -/
def moveStart (p : Part) (t : Targets) : Part × Bool :=
  if p.lines.estop then (p, false)
  else
    let p := if p.drive.releaseTimer.isSome then p.withDrive (restAxes p.drive) else p
    if p.drive.anyStarted then (p, false)
    else
      let q := p.withDrive { p.drive with axes := PerAxis.make (startedAxis p t) }
      (q, q.drive.axes.all axisDone)

/-- R140, R141: a started axis becomes HELD, with demand 0 and its move timer stopped. -/
def heldAxis (a : AxisState) : AxisState :=
  if a.started then { a with phase := .held, demand := 0, timer := .stopped } else a

/-- R140, R145: HOLD. -/
def holdDrive (p : Part) : Part :=
  if !p.lines.estop && p.drive.releaseTimer.isNone && p.drive.anyStarted then
    p.withDrive { p.drive with axes := p.drive.axes.map heldAxis, clampEngaged := true }
  else p

/-- R141: RELEASE. -/
def releaseDrive (p : Part) : Part :=
  if p.drive.anyStarted && p.drive.releaseTimer.isNone then
    p.withDrive { axes := p.drive.axes.map heldAxis, clampEngaged := false,
                  releaseTimer := some p.store.working.releaseTime }
  else p

/-- R143: the residual of an axis, for a started one. -/
def residualOf (p : Part) (x : Axis) : Option Int :=
  let a := p.drive.axes.get x
  if a.started then some (driveValue p (axisChannel x) - a.target.getD 0) else none

/-- R142: the end of the release: the residuals, and the part with every axis IDLE. -/
def endRelease (p : Part) : Part × PerAxis (Option Int) :=
  (p.withDrive (restAxes p.drive), PerAxis.make (residualOf p))

/-- R144: the emergency stop line ends the drive's work. -/
def stopDrive (p : Part) : Part := p.withDrive { restAxes p.drive with clampEngaged := false }

end Sys2Proof.Machine
end

