-- ==== Sys2Proof/Machine/Context.lean ====
section
/-! DEFINITION. The plan contexts (chapter 5) and the slot states they keep (section 4.3): the fetch, segment ends, catch-up,
arrival, and the geometry at C. -/

namespace Sys2Proof.Machine
open Sys2Proof

/-- A plan context of the part. -/
def Part.ctx (p : Part) : ContextId → Context
  | .h => p.ctxH
  | .v => p.ctxV

/-- The part with a plan context replaced. -/
def Part.setCtx (p : Part) (i : ContextId) (c : Context) : Part :=
  match i with
  | .h => { p with ctxH := c }
  | .v => { p with ctxV := c }

/-- The length of a segment descriptor; a flow descriptor has none. -/
def segmentLength : Descriptor → Int
  | .segmentH s => s.length
  | .segmentV s => s.length
  | _ => 0

/-- The link of a segment descriptor. -/
def segmentLink : Descriptor → Option Nat
  | .segmentH s => s.link
  | .segmentV s => s.link
  | _ => none

/-- R70: a segment's end is its start chainage plus the direction sign × the length in the shadow copy. -/
def segmentEndOf (d : Direction) (r : SegmentRecord) : Int := r.start + dirSign d * segmentLength r.shadow

/-- R70: the own kind of H is SEGMENT-H and the own kind of V is SEGMENT-V. -/
def isOwnKind : ContextId → Descriptor → Bool
  | .h, .segmentH _ => true
  | .v, .segmentV _ => true
  | _, _ => false

/-- A flow descriptor. -/
def isFlow : Descriptor → Bool
  | .segmentH _ => false
  | .segmentV _ => false
  | _ => true

/-! ### Slot states (R61, R62) -/

/-- R61, R62: a slot becomes DONE with a code. -/
def markDone (plan : Table Slot) (k : Nat) (code : CompletionCode) : Table Slot :=
  setSlot plan k { slotAt plan k with state := .done, code := some code }

/-- R61: a slot becomes IN_USE and loses its completion code. -/
def markInUse (plan : Table Slot) (k : Nat) : Table Slot :=
  setSlot plan k { slotAt plan k with state := .inUse, code := none }

/-! ### The fetch (section 5.3) -/

/-- What a fetch changes as it goes: plan memory, the call stack and the repeat remaining. -/
structure Walk where
  plan : Table Slot
  stack : List Nat
  repeatLeft : Nat
  deriving DecidableEq, Repr

/-- R76, R81: how a fetch ends: at a segment of the own kind, or dead at a slot. -/
inductive FetchEnd where
  | reached (slot : Nat) (shadow : Descriptor)
  | died (code : DeadCode) (slot : Nat)
  deriving DecidableEq, Repr

/-- R77 to R79: a flow descriptor at a slot is executed; the answer is the slot examined next, or the dead code when it
is not executed. -/
def executeFlow (w : Walk) (k : Nat) : Descriptor → Walk × Except DeadCode Nat
  | .branch target => ({ w with plan := markDone w.plan k .executed }, .ok target)
  | .call target link =>
    if w.stack.length < 4 then
      ({ w with plan := markDone w.plan k .executed, stack := w.stack ++ [link] }, .ok target)
    else (w, .error .stackOver)
  | .ret =>
    match w.stack.getLast? with
    | none => (w, .error .stackUnder)
    | some r => ({ w with plan := markDone w.plan k .executed, stack := w.stack.dropLast }, .ok r)
  | .repeatRun count link =>
    if ((slotAt w.plan link).contents.map isFlow).getD false then
      ({ w with plan := markDone w.plan k .repeatCancelled, repeatLeft := 0 }, .ok link)
    else ({ w with plan := markDone w.plan k .executed, repeatLeft := count }, .ok link)
  | _ => (w, .error .wrongKind)

/-- R76, R80: a fetch from a slot, with `left` flow descriptors still allowed. -/
def fetchFrom (i : ContextId) : Nat → Walk → Nat → Walk × FetchEnd
  | left, w, k =>
    match (slotAt w.plan k).contents with
    | none => (w, .died .emptySlot k)
    | some desc =>
      if isFlow desc then
        match left with
        | 0 => (w, .died .flowLoop k)
        | left + 1 =>
          match executeFlow w k desc with
          | (w, .error code) => (w, .died code k)
          | (w, .ok next) => fetchFrom i left w next
      else if isOwnKind i desc then ({ w with plan := markInUse w.plan k }, .reached k desc)
      else (w, .died .wrongKind k)

/-- R80: a fetch executes at most 16 flow descriptors. -/
def fetch (i : ContextId) (w : Walk) (entry : Nat) : Walk × FetchEnd := fetchFrom i 16 w entry

/-- The part and a context after a walk. -/
def Part.setWalk (p : Part) (i : ContextId) (c : Context) (w : Walk) : Part :=
  ({ p with plan := w.plan } : Part).setCtx i { c with stack := w.stack, repeatLeft := w.repeatLeft }

/-- What a fetch starts from. -/
def Part.walk (p : Part) (c : Context) : Walk := { plan := p.plan, stack := c.stack, repeatLeft := c.repeatLeft }

/-- R93: a change of a context's state is handed to the port. -/
def handPlanState (p : Part) (i : ContextId) (slot : Option Nat) : Part :=
  let c := p.ctx i
  handEvent p (.planState i c.state (c.dead.map (·.1)) slot)

/-- R81, R93: the context dies; `held` is the segment it keeps in both roles, if any. -/
def contextDies (p : Part) (i : ContextId) (c : Context) (w : Walk) (code : DeadCode) (slot : Nat)
    (held : Option SegmentRecord) : Part :=
  handPlanState
    (p.setWalk i { c with state := .dead, dead := some (code, slot), armed := none, current := held, previous := held } w)
    i (some slot)

/-! ### Segment ends and catch-up (section 5.4) -/

/-- R84: C lies at or beyond the end of the current segment. -/
def atEnd (p : Part) (r : SegmentRecord) : Bool :=
  decide (0 ≤ aheadBy p.travel.direction (chainageC p) (segmentEndOf p.travel.direction r))

/-- R82, first step: the old previous segment's slot becomes DONE TRAVERSED unless the current segment still holds it. -/
def giveUpPrevious (plan : Table Slot) (previous : Option SegmentRecord) (currentSlot : Nat) : Table Slot :=
  match previous with
  | none => plan
  | some old => if old.slot = currentSlot then plan else markDone plan old.slot .traversed

/-- R82, R83: one segment end of a RUNNING context whose current segment is `r`. -/
def segmentEnd (p : Part) (i : ContextId) (r : SegmentRecord) : Part :=
  let c := p.ctx i
  let start := segmentEndOf p.travel.direction r
  let p := { p with plan := giveUpPrevious p.plan c.previous r.slot }
  if 0 < c.repeatLeft then
    p.setCtx i { c with previous := some r, repeatLeft := c.repeatLeft - 1, current := some { r with start := start } }
  else
    match (slotAt p.plan r.slot).contents.bind segmentLink with
    | none => handPlanState (p.setCtx i { c with state := .starved, current := some r, previous := some r }) i (some r.slot)
    | some link =>
      match fetch i (p.walk c) link with
      | (w, .reached k shadow) =>
        p.setWalk i { c with previous := some r, current := some { slot := k, shadow := shadow, start := start } } w
      | (w, .died code k) => contextDies p i c w code k (some r)

/-- R84: further segment ends within the one event, at most `n` of them, while the context is RUNNING and C lies at or
beyond the end of its current segment. -/
def catchUpBy (i : ContextId) : Nat → Part → Part
  | 0, p => p
  | n + 1, p =>
    match (p.ctx i).state, (p.ctx i).current with
    | .running, some r => if atEnd p r then catchUpBy i n (segmentEnd p i r) else p
    | _, _ => p

/-- R84: the catch-up. A segment is at least 500 mm long (R57, R58), so the distance from the current segment's start to
C bounds the number of ends. -/
def catchUp (p : Part) (i : ContextId) : Part :=
  match (p.ctx i).current with
  | none => p
  | some r => catchUpBy i ((chainageC p - r.start).natAbs / 500 + 1) p

/-- R74, R75: a fetch from a first slot that makes a context RUNNING or DEAD, its segment starting at `start`. -/
def startContext (p : Part) (i : ContextId) (first : Nat) (start : Int) : Part :=
  let c := p.ctx i
  match fetch i (p.walk c) first with
  | (w, .reached k shadow) =>
    let c := { c with state := .running, armed := none, current := some { slot := k, shadow := shadow, start := start },
                      previous := none }
    catchUp (handPlanState (p.setWalk i c w) i (some k)) i
  | (w, .died code k) => contextDies p i c w code k none

/-- R75, R82: a context takes an advance: the arrival at an armed start, or its segment ends. -/
def contextAdvance (i : ContextId) (p : Part) : Part :=
  let c := p.ctx i
  match c.state with
  | .armed =>
    match c.armed with
    | none => p
    | some (first, start) =>
      if 0 ≤ aheadBy p.travel.direction (chainageC p) start then startContext p i first start else p
  | .running => catchUp p i
  | _ => p

/-! ### Waking and stopping -/

/-- R87: PLAN WAKE on a STARVED context: the link is read again, and fetched through if it is present. -/
def wakeContext (p : Part) (i : ContextId) : Part :=
  let c := p.ctx i
  match c.current with
  | none => p
  | some r =>
    match (slotAt p.plan r.slot).contents.bind segmentLink with
    | none => p
    | some link =>
      match fetch i (p.walk c) link with
      | (w, .reached k shadow) =>
        let c := { c with state := .running, previous := some r,
                          current := some { slot := k, shadow := shadow, start := segmentEndOf p.travel.direction r } }
        catchUp (handPlanState (p.setWalk i c w) i (some k)) i
      | (w, .died code k) => contextDies p i c w code k (some r)

/-- R88: the slot of a held segment becomes DONE CUT. -/
def cutSegment (plan : Table Slot) (r : Option SegmentRecord) : Table Slot :=
  match r with
  | none => plan
  | some r => markDone plan r.slot .cut

/-- R88: PLAN STOP on a context that is not STOPPED. -/
def stopContext (p : Part) (i : ContextId) : Part :=
  let c := p.ctx i
  let p := { p with plan := cutSegment (cutSegment p.plan c.current) c.previous }
  handPlanState (p.setCtx i .afterReset) i none

/-! ### Geometry at C (section 5.7) -/

/-- R89: the mode of a geometry answer. -/
inductive GeometryMode where
  | none | inSegment | holdEnd | holdStart
  deriving DecidableEq, Repr

/-- R89: the mode, and the segment the answer comes from. -/
def geometryOf (p : Part) (i : ContextId) : GeometryMode × Option SegmentRecord :=
  let c := p.ctx i
  let d := p.travel.direction
  let x := chainageC p
  match c.state, c.current with
  | .stopped, _ => (.none, none)
  | .armed, _ => (.none, none)
  | _, none => (.none, none)
  | _, some cur =>
    let covers := fun (r : SegmentRecord) =>
      decide (0 ≤ aheadBy d x r.start) && decide (aheadBy d x (segmentEndOf d r) < 0)
    if covers cur then (.inSegment, some cur)
    else
      match c.previous with
      | some prev =>
        if covers prev then (.inSegment, some prev)
        else if 0 ≤ aheadBy d x (segmentEndOf d cur) then (.holdEnd, some cur)
        else (.holdStart, some prev)
      | none =>
        if 0 ≤ aheadBy d x (segmentEndOf d cur) then (.holdEnd, some cur) else (.holdStart, some cur)

/-- R90: the distance from a segment's start to C along the working direction. -/
def distanceInto (p : Part) (r : SegmentRecord) : Int := aheadBy p.travel.direction (chainageC p) r.start

/-- R90, R91: the u of an answer from a segment: in HOLD_END its length, in HOLD_START 0, and else the distance of C into
it. -/
def answerU (p : Part) (mode : GeometryMode) (r : SegmentRecord) : Int :=
  match mode with
  | .holdEnd => segmentLength r.shadow
  | .holdStart => 0
  | _ => distanceInto p r

/-- R90, R91, R113: the values of the H answer. -/
structure GeometryH where
  length : Int
  u : Int
  curvatureStart : Int
  curvatureEnd : Int
  cantStart : Int
  cantEnd : Int
  reference : ReferenceRail
  diverging : Option (Int × Int)
  deriving DecidableEq, Repr

/-- R90, R91, R113: the values of the V answer. -/
structure GeometryV where
  u : Int
  curvature : Int
  baseLift : Int
  deriving DecidableEq, Repr

/-- R89 to R91: the H answer, its mode and its values. -/
def answerH (p : Part) : GeometryMode × Option GeometryH :=
  match geometryOf p .h with
  | (mode, some r) =>
    match r.shadow with
    | .segmentH s =>
      match mode with
      | .holdEnd =>
        (mode, some { length := s.length, u := answerU p mode r, curvatureStart := s.curvatureEnd,
                      curvatureEnd := s.curvatureEnd, cantStart := s.cantEnd, cantEnd := s.cantEnd,
                      reference := s.reference, diverging := s.diverging.map fun x => (x.2, x.2) })
      | .holdStart =>
        (mode, some { length := s.length, u := answerU p mode r, curvatureStart := s.curvatureStart,
                      curvatureEnd := s.curvatureStart, cantStart := s.cantStart, cantEnd := s.cantStart,
                      reference := s.reference, diverging := s.diverging.map fun x => (x.1, x.1) })
      | _ =>
        (mode, some { length := s.length, u := answerU p mode r, curvatureStart := s.curvatureStart,
                      curvatureEnd := s.curvatureEnd, cantStart := s.cantStart, cantEnd := s.cantEnd,
                      reference := s.reference, diverging := s.diverging })
    | _ => (.none, none)
  | (_, none) => (.none, none)

/-- R89 to R91: the V answer, its mode and its values. -/
def answerV (p : Part) : GeometryMode × Option GeometryV :=
  match geometryOf p .v with
  | (mode, some r) =>
    match r.shadow with
    | .segmentV s => (mode, some { u := answerU p mode r, curvature := s.curvature, baseLift := s.baseLift })
    | _ => (.none, none)
  | (_, none) => (.none, none)

end Sys2Proof.Machine
end

