-- ==== Sys2Proof/Machine/Targets.lean ====
section
/-! DEFINITION. The look-ups in the front correction table (section 6.2) and the target computation (chapter 7), stage by
stage. -/

namespace Sys2Proof.Machine
open Sys2Proof

/-! ### Front corrections (R97) -/

/-- R97, steps 3 to 5: the value at a chainage from one half of the entries, or none for uncorrected. -/
def lookUp (c : Corrections) (half : CorrEntry → Option Int) (x : Int) : Option Int :=
  let r := x - c.base
  let i := r / c.spacing
  let rem := r - i * c.spacing
  let valueAt := fun (k : Int) => if 0 ≤ k ∧ k ≤ 255 then half (entryAt c.entries k.toNat) else none
  match valueAt i with
  | none => none
  | some v =>
    if rem = 0 then some v
    else
      match valueAt (i + 1) with
      | none => none
      | some w => some (v + roundDiv ((w - v) * rem) c.spacing)

/-! ### The stages -/

/-- R112 to R117: everything a computation takes at the cycle start. -/
structure TargetInputs where
  settings : Settings
  modeH : GeometryMode
  geoH : Option GeometryH
  modeV : GeometryMode
  geoV : Option GeometryV
  fA : Option Int
  fAv : Option Int
  trim : Int
  m : Int
  lnSaturated : Bool
  mvL : Int
  lvlSaturated : Bool
  mvR : Int
  lvrSaturated : Bool
  xm : Int
  xlSaturated : Bool
  previous : Option Int
  deriving DecidableEq, Repr

/-- R114, stage 1: the design cant at C. -/
def designCant (g : GeometryH) : Int := g.cantStart + roundDiv ((g.cantEnd - g.cantStart) * g.u) g.length

/-- R114, stage 1: the diverging offset at C. -/
def divergingOffset (g : GeometryH) : Option Int :=
  g.diverging.map fun x => x.1 + roundDiv ((x.2 - x.1) * g.u) g.length

/-- R115, stage 2: the design lateral versine, one division of one exact numerator by one exact denominator. -/
def designVersine (st : Settings) (g : GeometryH) : Int :=
  let ks := g.curvatureStart
  let dk := g.curvatureEnd - g.curvatureStart
  roundDiv (st.a * st.b * (3 * (ks * g.length + dk * g.u) + dk * (st.a - st.b))) (6 * g.length * 10 ^ 8)

/-- R116, stage 3: the lateral front term. -/
def lateralFrontTerm (st : Settings) (fA : Option Int) : Int := roundDiv (fA.getD 0 * st.b) (st.a + st.b)

/-- R118, stage 4: the raw shift under the step limit, which applies only when there is a previous shift. -/
def stepLimited (st : Settings) (previous : Option Int) (raw : Int) : Int :=
  match previous with
  | none => raw
  | some p => clampTo (p - st.stepLimit) (p + st.stepLimit) raw

/-- R118, stage 4: the shift under the lining limit. -/
def liningLimited (st : Settings) (s1 : Int) : Int := clampTo (-st.liningLimit) st.liningLimit s1

/-- R120, stage 5: the effective base. -/
def effectiveBase (baseLift trim : Int) : Int := clampTo 0 1500 (baseLift + 5 * trim)

/-- R121, stage 6: the vertical design versine. -/
def verticalVersine (st : Settings) (curvature : Int) : Int := roundDiv (st.av * st.bv * curvature) (2 * 10 ^ 8)

/-- R122, stage 7: the vertical front term. -/
def verticalFrontTerm (st : Settings) (base : Int) (fAv : Option Int) : Int :=
  roundDiv ((base - fAv.getD 0) * st.bv) (st.av + st.bv)

/-- R123, stage 8: the reference rail chosen; `true` is LEFT. -/
def chosenLeft (g : Option GeometryH) (cant : Int) : Bool :=
  match g with
  | none => true
  | some g =>
    match g.reference with
    | .left => true
    | .right => false
    | .low => decide (0 ≤ cant)

/-- R123 to R125, stages 8 and 9: the rail lifts before the clamp, and whether REF_SWAPPED is raised. -/
def railLifts (i : TargetInputs) (cant base : Int) : Int × Int × Bool :=
  if i.lvlSaturated && i.lvrSaturated then (base, base, false)
  else
    let chosen := chosenLeft i.geoH cant
    let left := if i.lvlSaturated then false else if i.lvrSaturated then true else chosen
    let dv := verticalVersine i.settings ((i.geoV.map (·.curvature)).getD 0)
    let tV := verticalFrontTerm i.settings base i.fAv
    let ref := (if left then i.mvL else i.mvR) - dv + tV
    let k := if i.xlSaturated then 0 else cant - i.xm
    if left then (ref, ref + k, left != chosen) else (ref - k, ref, left != chosen)

/-- R126, stage 10: a lift clamped to 0..max lift. -/
def clampLift (st : Settings) (x : Int) : Int := clampTo 0 st.maxLift x

/-- R127, stage 11: the auxiliary lift before its clamp. -/
def auxLiftRaw (st : Settings) (liftL liftR x : Int) : Int := liftL + roundDiv ((liftR - liftL) * x) st.span

/-- R109 to R129: the eleven stages. -/
def computeTargets (i : TargetInputs) : Targets :=
  let st := i.settings
  let cant := (i.geoH.map designCant).getD 0
  let x := i.geoH.bind divergingOffset
  let d := (i.geoH.map (designVersine st)).getD 0
  let raw := i.m - d - lateralFrontTerm st i.fA
  let s1 := stepLimited st i.previous raw
  let s := if i.lnSaturated then 0 else liningLimited st s1
  let base := effectiveBase ((i.geoV.map (·.baseLift)).getD 0) i.trim
  let (l, r, swapped) := railLifts i cant base
  let liftL := clampLift st l
  let liftR := clampLift st r
  let auxRaw := x.map (auxLiftRaw st liftL liftR)
  { shift := s
    liftL := liftL
    liftR := liftR
    aux := auxRaw.map (clampLift st)
    flags :=
      { noPlanH := i.geoH.isNone
        noPlanV := i.geoV.isNone
        heldH := decide (i.modeH = .holdEnd ∨ i.modeH = .holdStart)
        heldV := decide (i.modeV = .holdEnd ∨ i.modeV = .holdStart)
        uncorrectedH := i.fA.isNone
        uncorrectedV := i.fAv.isNone
        stepLimit := !i.lnSaturated && decide (s1 ≠ raw)
        lineLimit := !i.lnSaturated && decide (s ≠ s1)
        lnFault := i.lnSaturated
        refSwapped := swapped
        levelFault := i.lvlSaturated && i.lvrSaturated
        xlFault := i.xlSaturated
        lowSpotL := decide (l < 0)
        lowSpotR := decide (r < 0)
        liftLimitL := decide (st.maxLift < l)
        liftLimitR := decide (st.maxLift < r)
        lowSpotAux := (auxRaw.map fun a => decide (a < 0)).getD false
        liftLimitAux := (auxRaw.map fun a => decide (st.maxLift < a)).getD false } }

/-- R109, R112, R113, R116, R117, R122: the inputs as they stand at a cycle start on record n. -/
def targetInputs (p : Part) (n : Nat) : TargetInputs :=
  { settings := p.store.working
    modeH := (answerH p).1
    geoH := (answerH p).2
    modeV := (answerV p).1
    geoV := (answerV p).2
    fA := lookUp p.corr (·.lateral) (pointA p)
    fAv := lookUp p.corr (·.vertical) (pointAv p)
    trim := p.trim
    m := measurementMean p .ln
    lnSaturated := saturated p .ln
    mvL := measurementMean p .lvl
    lvlSaturated := saturated p .lvl
    mvR := measurementMean p .lvr
    lvrSaturated := saturated p .lvr
    xm := measurementMean p .xl
    xlSaturated := saturated p .xl
    previous := previousShift p.queue.records n }

/-- R129: the targets part is written whole into the record in cycle. -/
def writeTargets (p : Part) (n : Nat) : Part :=
  let t := computeTargets (targetInputs p n)
  p.withRecords (changeRecord p.queue.records n fun r => { r with targets := some t })

end Sys2Proof.Machine
end

