-- ==== Sys2Proof/Machine/Cycle.lean ====
section
/-! DEFINITION. The cycle controller (chapter 9): starts, the phases of a cycle, abandonment, faults and lockout. -/

namespace Sys2Proof.Machine
open Sys2Proof

/-- The part with the cycle controller replaced. -/
def Part.withCycle (p : Part) (c : Cycle) : Part := { p with cycle := c }

/-- What the controller holds for a unit. -/
def Part.unit (p : Part) (u : TampUnit) : UnitState := p.cycle.units.get u

/-- A unit has the role LOWERED. -/
def lowered (p : Part) (u : TampUnit) : Bool := decide ((p.unit u).role = .lowered)

/-- A condition that holds of every LOWERED unit. -/
def everyLowered (p : Part) (f : UnitState → Bool) : Bool := allUnits.all fun u => !lowered p u || f (p.unit u)

/-- A function applied to every unit's state. -/
def mapUnits (p : Part) (f : TampUnit → UnitState → UnitState) : PerUnit UnitState :=
  PerUnit.make fun u => f u (p.unit u)

/-- Every vertical demand at rest. -/
def noVertical : PerUnit Vertical := ⟨.rest, .rest, .rest, .rest⟩

/-- Every squeeze output OFF. -/
def noSqueeze : PerUnit Bool := ⟨false, false, false, false⟩

/-- R159, R164, R167: the raise demand to each unit below the clear height, and 0 to each clear unit. -/
def raiseDemands (p : Part) : PerUnit Vertical := PerUnit.make fun u => if unitClear p u then .rest else .raise

/-- R149: the penetration depth taken at the cycle start. -/
def cycleDepth (p : Part) : Int := (p.cycle.values.map (·.depth)).getD 0

/-- R149: the squeeze threshold taken at the cycle start. -/
def cycleThreshold (p : Part) : Int := (p.cycle.values.map (·.threshold)).getD 0

/-- R149: the squeeze time taken at the cycle start. -/
def cycleSqueezeTime (p : Part) : Int := (p.cycle.values.map (·.squeezeTime)).getD 0

/-- R149: the insertion count taken at the cycle start. -/
def cycleInsertions (p : Part) : Nat := (p.cycle.values.map (·.insertions)).getD 0

/-- R154: the fold set taken at the cycle start. -/
def cycleFoldSet (p : Part) : ArmSet := (p.cycle.values.map (·.foldSet)).getD noArms

/-! ### The phases (section 9.4) -/

/-- R160: entering RELEASING. -/
def enterReleasing (p : Part) : Part :=
  releaseDrive (p.withCycle { p.cycle with phase := .releasing, fold := noArms, phaseTimer := none })

/-- R159: the end of the raise; `penetrate` is what the next insertion begins with. Every unit is clear
by its depth as it stands (log entry 26), and every vertical demand becomes 0 (log entry 13). -/
def endRaise (penetrate : Part → Part) (p : Part) : Part :=
  let p := p.withCycle { p.cycle with vertical := noVertical, phaseTimer := none }
  if p.cycle.stopRequested = .none ∧ p.cycle.insertionsDone < cycleInsertions p then penetrate p else enterReleasing p

/-- R159: entering RAISING. No unit is marked clear at the entry. DESIGN CHOICE (log entry 32). -/
def enterRaisingWith (penetrate : Part → Part) (p : Part) : Part :=
  let p := p.withCycle { p.cycle with
    phase := .raising, squeeze := noSqueeze, phaseTimer := some .raise, vertical := raiseDemands p }
  if allClear p then endRaise penetrate p else p

/-- R158: the last LOWERED unit's squeeze has ended: insertions done goes up by 1 and the cycle goes to RAISING. -/
def endSqueezing (penetrate : Part → Part) (p : Part) : Part :=
  enterRaisingWith penetrate (p.withCycle { p.cycle with insertionsDone := p.cycle.insertionsDone + 1 })

/-- R158: the squeeze of the LOWERED units for which `which` holds is ended, with SQUEEZE_TIMED when `timed`. -/
def endSqueezeOf (which : TampUnit → Bool) (timed : Bool) (p : Part) : Part :=
  let ends := fun u => lowered p u && !(p.unit u).squeezeEnded && which u
  p.withCycle { p.cycle with
    squeeze := PerUnit.make fun u => if ends u then false else p.cycle.squeeze.get u
    units := mapUnits p fun u s =>
      if ends u then { s with squeezeEnded := true,
                              flags := { s.flags with squeezeTimed := s.flags.squeezeTimed || timed } }
      else s }

/-- R158: a unit's side has reached the squeeze threshold. -/
def sideAtThreshold (p : Part) (u : TampUnit) : Bool :=
  decide (cycleThreshold p ≤ driveValue p (pressureChannel u))

/-- R158: after squeezes have ended, the cycle goes to RAISING if every LOWERED unit's squeeze has. -/
def afterSqueeze (penetrate : Part → Part) (p : Part) : Part :=
  if everyLowered p (·.squeezeEnded) then endSqueezing penetrate p else p

/-- R158: entering SQUEEZING. -/
def enterSqueezingWith (penetrate : Part → Part) (p : Part) : Part :=
  let p := p.withCycle { p.cycle with
    phase := .squeezing
    phaseTimer := some (.squeeze (cycleSqueezeTime p))
    units := mapUnits p fun u s => if s.role = .lowered then { s with depthReached := unitDepth p u } else s
    squeeze := PerUnit.make (lowered p) }
  afterSqueeze penetrate (endSqueezeOf (sideAtThreshold p) false p)

/-- R157: a LOWERED unit among `which` whose depth reaches the penetration depth less the depth tolerance of 100 tenths is
at depth, and its vertical demand becomes 0. -/
def reachDepthOf (which : TampUnit → Bool) (p : Part) : Part :=
  let reaches := fun u =>
    lowered p u && !(p.unit u).atDepth && which u && decide (cycleDepth p - 100 ≤ unitDepth p u)
  p.withCycle { p.cycle with
    vertical := PerUnit.make fun u => if reaches u then .rest else p.cycle.vertical.get u
    units := mapUnits p fun u s => if reaches u then { s with atDepth := true } else s }

/-- R157: when every LOWERED unit is at depth, the cycle goes to SQUEEZING. -/
def afterDepth (penetrate : Part → Part) (p : Part) : Part :=
  if everyLowered p (·.atDepth) then enterSqueezingWith penetrate p else p

/-- R157: what entering PENETRATING sets. -/
def setPenetrating (p : Part) : Part :=
  p.withCycle { p.cycle with
    phase := .penetrating
    penetrationBegun := true
    phaseTimer := some .penetration
    units := mapUnits p fun _ s => { s with atDepth := false, squeezeEnded := false, clear := false }
    vertical := PerUnit.make fun u => if lowered p u then .lower else p.cycle.vertical.get u }

/-- R157: entering PENETRATING, with at most `n` insertions begun within the one event. -/
def penetrateBy : Nat → Part → Part
  | 0, p => p
  | n + 1, p => afterDepth (penetrateBy n) (reachDepthOf (fun _ => true) (setPenetrating p))

/-- R157: entering PENETRATING. Each insertion that ends within the event raises insertions done, so the insertion count
bounds the insertions begun in it. -/
def enterPenetrating (p : Part) : Part := penetrateBy (cycleInsertions p + 1) p

/-- R158: entering SQUEEZING. -/
def enterSqueezing (p : Part) : Part := enterSqueezingWith enterPenetrating p

/-- R159: entering RAISING. -/
def enterRaising (p : Part) : Part := enterRaisingWith enterPenetrating p

/-! ### Folding (R155, R156) -/

/-- R147: an arm confirms when its line reads as its fold output commands. -/
def armConfirms (p : Part) (x : Arm) : Bool := p.lines.folds.get x == p.cycle.fold.get x

/-- R147: a unit confirms when both its arms confirm. -/
def unitConfirms (p : Part) (u : TampUnit) : Bool := armConfirms p (armsOf u).1 && armConfirms p (armsOf u).2

/-- R156: a unit with both arms in the fold set. -/
def unitFolded (folds : ArmSet) (u : TampUnit) : Bool := folds.get (armsOf u).1 && folds.get (armsOf u).2

/-- R156: the end of the folding step. -/
def endFolding (p : Part) : Part :=
  let p := p.withCycle { p.cycle with folding := .ended, phaseTimer := none }
  if allUnits.any (lowered p) then enterPenetrating p else enterReleasing p

/-- R156: an awaited unit that confirms takes the role LOWERED, and the step ends when no unit is awaited. -/
def confirmUnits (p : Part) : Part :=
  let p := p.withCycle { p.cycle with
    units := mapUnits p fun u s => if s.role = .undecided ∧ unitConfirms p u then { s with role := .lowered } else s }
  if allUnits.any fun u => (p.unit u).role = .undecided then p else endFolding p

/-- R156: the beginning of the folding step. -/
def beginFolding (p : Part) : Part :=
  let folds := cycleFoldSet p
  confirmUnits (p.withCycle { p.cycle with
    folding := .inProgress
    fold := folds
    phaseTimer := some .fold
    units := mapUnits p fun u s =>
      if unitFolded folds u then { s with role := .folded, flags := { s.flags with folded := true } } else s })

/-- R155: the first POSITIONED of a cycle gives HOLD to the drive and begins the folding step; later ones are
disregarded. -/
def positioned (p : Part) : Part :=
  if p.cycle.phase = .positioning ∧ p.cycle.folding = .notBegun then beginFolding (holdDrive p) else p

/-! ### Starting (section 9.3) -/

/-- R151: the record on which a cycle can start in MANUAL mode, as things stand. -/
def startableRecord (p : Part) : Option SleeperRecord :=
  if p.cycle.phase = .idle ∧ p.travel.originState = .set ∧ p.cycle.motion = .standstill ∧ p.lines.estop = false then
    match recordInPosition p with
    | none => none
    | some r =>
      if blockedByLatch p.queue r.number = false ∧ r.candidate.skip ≠ some .allFolded ∧ r.state ≠ .inCycle then some r
      else none
  else none

/-- R154: the cycle values taken at a start. -/
def valuesFor (p : Part) (r : SleeperRecord) : CycleValues where
  insertions := r.candidate.insertions
  depth := p.store.working.penetrationDepth
  threshold := p.store.working.squeezeThreshold
  squeezeTime := p.store.working.squeezeTime
  foldSet := r.candidate.foldSet

/-- R154: the controller in POSITIONING at the start of a cycle on a record. -/
def positioningCycle (p : Part) (r : SleeperRecord) : Cycle :=
  { p.cycle with
    phase := .positioning
    current := some r.number
    values := some (valuesFor p r)
    insertionsDone := 0
    penetrationBegun := false
    stopRequested := .none
    folding := .notBegun
    units := ⟨.undecided, .undecided, .undecided, .undecided⟩ }

/-- R154: the cycle start on a record, up to MOVE START: the record in cycle with its targets, the controller in
POSITIONING, and the stop point tested. -/
def beginCycle (p : Part) (r : SleeperRecord) : Part :=
  let q := writeTargets (startRecord p r.number) r.number
  testStopPoint (q.withCycle (positioningCycle q r))

/-- R132: MOVE START is given for the targets of the current sleeper; a POSITIONED within it is the first. -/
def giveMoveStart (p : Part) (n : Nat) : Part :=
  match (recordAt p.queue.records n).bind (·.targets) with
  | none => p
  | some t =>
    match moveStart p t with
    | (p, true) => positioned p
    | (p, false) => p

/-- R154: a cycle start on a record. -/
def startCycle (p : Part) (r : SleeperRecord) : Part := giveMoveStart (beginCycle p r) r.number

/-- R152: a start event: in AUTO mode a cycle starts on the record in position if it is PENDING with its skip flag
clear. -/
def startEvent (p : Part) : Part :=
  match p.cycle.mode with
  | .manual => p
  | .auto =>
    match startableRecord p with
    | none => p
    | some r => if r.state = .pending ∧ r.candidate.skip = none then startCycle p r else p

/-- R46, R152: the record in position is renewed, and an IN_POSITION handed on is a start event. -/
def renewAndStart (p : Part) : Part :=
  match renewInPosition p with
  | (p, true) => startEvent p
  | (p, false) => p

/-! ### Lockout (section 9.6) -/

/-- R166, R170: a cause is added to the cause set, and one not yet held hands on an EVENT LOCKOUT. -/
def addCause (p : Part) (c : Cause) (sleeper : Option Nat) : Part :=
  if p.cycle.causes.has c then p
  else
    let cs := p.cycle.causes.add c
    handEvent (p.withCycle { p.cycle with causes := cs }) (.lockout cs c sleeper)

/-- R170: LOCKOUT is entered from another state with a cause. -/
def enterLockout (p : Part) (c : Cause) (sleeper : Option Nat) : Part :=
  let cs := p.cycle.causes.add c
  handEvent (p.withCycle { p.cycle with phase := .lockout, causes := cs }) (.lockout cs c sleeper)

/-- R164, R167: with every unit clear by its depth as it stands (log entry 26), the lockout raise stops, its timer stops, every
fold output becomes OFF and every vertical demand 0 (log entry 13). -/
def afterLockoutDepth (p : Part) : Part :=
  if allClear p then
    p.withCycle { p.cycle with
      vertical := noVertical
      lockoutRaise := false
      phaseTimer := if p.cycle.lockoutRaise then none else p.cycle.phaseTimer
      fold := noArms }
  else p

/-- R167: the lockout raise starts. -/
def startLockoutRaise (p : Part) : Part :=
  afterLockoutDepth (p.withCycle { p.cycle with
    lockoutRaise := true, phaseTimer := some .raise, vertical := raiseDemands p })

/-- R164: the record in cycle becomes FAILED at a fault, keeping the result it had. -/
def failCurrent (p : Part) (cause : FailureCause) : Part :=
  match p.cycle.current with
  | none => p
  | some n => finishRecord p n .failed (some cause) none

/-- The controller without a current sleeper, without cycle values and with no stop requested (log entry 13). -/
def dropCurrent (p : Part) : Part := p.withCycle { p.cycle with current := none, values := none, stopRequested := .none }

/-- R164: a travel fault of the running cycle. -/
def travelFault (p : Part) : Part :=
  let n := p.cycle.current
  let p := startLockoutRaise (p.withCycle { p.cycle with squeeze := noSqueeze, phaseTimer := none })
  enterLockout (dropCurrent (failCurrent (releaseDrive p) .travelFault)) .travelFault n

/-- R164: a raise timeout of the running cycle with a unit below the clear height. -/
def stuckFault (p : Part) : Part :=
  let n := p.cycle.current
  let p := p.withCycle { p.cycle with
    squeeze := noSqueeze, phaseTimer := none, vertical := noVertical, lockoutRaise := false }
  enterLockout (dropCurrent (failCurrent (releaseDrive p) .unitStuck)) .unitStuck n

/-- R39, R45: the record in cycle is put back, and the record in position is renewed, since history may have lost a record
(R43). The cycle state is not yet IDLE, so nothing starts (R152). -/
def putBackCurrent (p : Part) : Part :=
  match p.cycle.current with
  | none => p
  | some n => (renewInPosition (putBackRecord p n)).1

/-- R162: a cycle in POSITIONING is abandoned before penetration. -/
def abandonCycle (p : Part) : Part :=
  let p := putBackCurrent (releaseDrive (p.withCycle { p.cycle with fold := noArms, phaseTimer := none }))
  let p := dropCurrent p
  p.withCycle { p.cycle with phase := .idle }

/-- R163: entering MOVING, as the controller takes it. -/
def cycleMoving (p : Part) : Part :=
  match p.cycle.phase with
  | .idle => p
  | .positioning => abandonCycle p
  | .penetrating =>
    if allClear p then enterRaising (p.withCycle { p.cycle with stopRequested := .travelFault }) else travelFault p
  | .squeezing =>
    if allClear p then enterRaising (p.withCycle { p.cycle with stopRequested := .travelFault }) else travelFault p
  | .raising => if allClear p then p.withCycle { p.cycle with stopRequested := .travelFault } else travelFault p
  | .releasing => if allClear p then p else travelFault p
  | .lockout =>
    if allClear p then p
    else
      let p := addCause p .travelFault none
      if p.cycle.lockoutRaise = false ∧ p.lines.estop = false then startLockoutRaise p else p

/-- R162: CYCLE STOP. With TRAVEL_FAULT requested already it changes nothing in RAISING, as a second CYCLE STOP does. DESIGN CHOICE
(log entry 33). -/
def stopCycle (p : Part) : Part :=
  match p.cycle.phase with
  | .positioning => abandonCycle p
  | .penetrating =>
    if p.cycle.stopRequested = .none then enterRaising (p.withCycle { p.cycle with stopRequested := .stopped }) else p
  | .squeezing =>
    if p.cycle.stopRequested = .none then enterRaising (p.withCycle { p.cycle with stopRequested := .stopped }) else p
  | .raising =>
    if p.cycle.stopRequested = .none then p.withCycle { p.cycle with stopRequested := .stopped } else p
  | _ => p

/-- R165: the emergency stop line becomes asserted, as the controller and the drive take it. -/
def cycleEstop (p : Part) : Part :=
  let n := p.cycle.current
  let p := stopDrive (p.withCycle { p.cycle with
    vertical := noVertical, squeeze := noSqueeze, fold := noArms, phaseTimer := none, lockoutRaise := false })
  let p := if p.cycle.penetrationBegun then failCurrent p .estop else putBackCurrent p
  let locked := decide (p.cycle.phase = .lockout)
  let p := dropCurrent p
  if locked then addCause p .estop none else enterLockout p .estop n

/-! ### Samples (R157 to R159, R167) -/

/-- R157, R159, R164, R167: a sample of a unit's depth channel, as the controller takes it. In RAISING the sample marks a unit
that is clear, one that was clear at the entry too. DESIGN CHOICE (log entry 32). -/
def depthSample (u : TampUnit) (p : Part) : Part :=
  match p.cycle.phase with
  | .penetrating => afterDepth enterPenetrating (reachDepthOf (fun w => decide (w = u)) p)
  | .raising =>
    if unitClear p u then
      let p := p.withCycle { p.cycle with
        units := p.cycle.units.set u { p.unit u with clear := true }
        vertical := p.cycle.vertical.set u .rest }
      if allClear p then endRaise enterPenetrating p else p
    else p
  | .lockout =>
    afterLockoutDepth
      (if p.cycle.lockoutRaise && unitClear p u then
        p.withCycle { p.cycle with vertical := p.cycle.vertical.set u .rest } else p)
  | _ => p

/-- R158: a sample of a side's pressure channel, as the controller takes it. -/
def pressureSample (ch : Channel) (p : Part) : Part :=
  match p.cycle.phase with
  | .squeezing =>
    afterSqueeze enterPenetrating
      (endSqueezeOf (fun u => decide (pressureChannel u = ch) && sideAtThreshold p u) false p)
  | _ => p

/-! ### The end of the release (R160, R161) -/

/-- R160: the result of the cycle. -/
def resultOf (p : Part) (residuals : PerAxis (Option Int)) : CycleResult where
  residuals := residuals
  depths := PerUnit.make fun u => (p.unit u).depthReached
  insertionsDone := p.cycle.insertionsDone
  unitFlags := PerUnit.make fun u => (p.unit u).flags

/-- R160: the record becomes TAMPED, or FAILED with the cause of the stop requested. -/
def outcomeOf : StopRequest → RecordState × Option FailureCause
  | .none => (.tamped, none)
  | .stopped => (.failed, some .stopped)
  | .travelFault => (.failed, some .travelFault)

/-- R160, R161: the controller takes the end of the release with its residuals; outside RELEASING it is discarded. -/
def cycleReleaseEnd (p : Part) (residuals : PerAxis (Option Int)) : Part :=
  match p.cycle.phase with
  | .releasing =>
    let (st, cause) := outcomeOf p.cycle.stopRequested
    let q := match p.cycle.current with
      | none => p
      | some n => finishRecord p n st cause (some (resultOf p residuals))
    let q := dropCurrent q
    q.withCycle { q.cycle with phase := .idle }
  | _ => p

/-! ### The start-up step (R171) -/

/-- R171: the cycle's initial state is settled. -/
def settledCycle (p : Part) : Cycle :=
  let clear := allClear p
  let causes := { noCauses with resetDown := !clear, estop := p.lines.estop }
  { p.cycle with
    phase := if clear && !p.lines.estop then .idle else .lockout
    causes := causes }

/-- R171, R170: the cause that the EVENT LOCKOUT of the start-up step carries as added. -/
def settlingCause (p : Part) : Cause := if p.lines.estop then .estop else .resetDown

end Sys2Proof.Machine
end

