-- ==== Sys2Proof/Machine/Port.lean ====
section
/-! DEFINITION. The message port (chapter 10): frames in, the taking of a request, frames out, admissions, the link, and the
port's own requests. Meanings: FRAME_RECEIVED, FRAME_TRANSMITTED, BUS_OFF, LINK_RESTART, HALT, STOP_POINT, EVENT,
SLEEPER_DONE, PART_RESET, PART_RESET_TAKES_EFFECT, STATUS, IDENTIFY, AUTH_GIVE, AUTH_TAKE, UNKNOWN_KIND_REQUEST. -/

namespace Sys2Proof.Machine
open Sys2Proof

/-- The part with the port replaced. -/
def Part.withPort (p : Part) (q : Port) : Part := { p with port := q }

/-! ### Classes and the catalogue (R179, section 10.6) -/

/-- R179: the class of a request. -/
inductive RequestClass where
  | read | data | control
  deriving DecidableEq, Repr

/-- Section 10.6: the catalogue, kind by kind. -/
def catalogue : List (Nat × RequestClass) :=
  [(1, .read), (2, .read), (3, .control), (4, .data), (6, .data), (8, .data), (9, .read), (10, .data), (11, .data),
   (12, .data), (13, .data), (16, .data), (17, .data), (18, .data), (19, .read), (20, .data), (21, .data), (22, .data),
   (24, .data), (25, .data), (26, .read), (27, .read), (28, .control), (29, .control), (30, .control), (32, .data),
   (33, .control), (34, .read), (36, .read), (37, .control), (38, .control), (40, .control), (41, .control),
   (42, .control), (43, .control), (44, .control)]

/-- Section 10.6: the class of a kind, none for a kind that is missing from the catalogue. -/
def classOfKind (kind : Nat) : Option RequestClass := (catalogue.find? fun x => x.1 == kind).map (·.2)

/-- R179: whether a sender is within a class, as the supervisor node and the authority holder stand. -/
def entitled (p : Part) (c : RequestClass) (node : Int) : Bool :=
  match c with
  | .read => true
  | .data => decide (node = p.store.working.supervisorNode)
  | .control => decide (node = p.port.authority)

/-! ### Frames in (R174, R176) -/

/-- R174: the request that a received frame is, or none when it is ignored. -/
def requestOf (partNode : Int) (f : BusFrame) : Option Request :=
  let kind := f.ident / 16
  let node : Int := (f.ident % 16 : Nat)
  if !f.extended && !f.remote && decide (1 ≤ kind ∧ kind ≤ 47) && decide (node ≠ partNode) then
    some { kind := kind, node := node, data := f.data }
  else none

/-- R176: a request joins the receive queue, or is discarded with OVERRUN when 4 are held. -/
def offerRequest (p : Part) (r : Request) : Part :=
  if p.port.rx.length < 4 then p.withPort { p.port with rx := p.port.rx ++ [r] }
  else p.withPort { p.port with overrun := true }

/-- FRAME_RECEIVED (R174). In BUS_OFF the port receives no frame (R187). -/
def execFrameReceived (frame : BusFrame) (s : State) : Host.Outcome State Fault Refusal :=
  eventOf s fun p =>
    match p.port.link, requestOf p.store.working.partNode frame with
    | .on, some r => offerRequest p r
    | _, _ => p

/-! ### Taking a request (R177) -/

/-- R101: the window after a request: a request of its owner other than CORR DATA and CORR READ closes it. -/
def closeWindowFor (p : Part) (r : Request) : Part :=
  match p.corr.window with
  | none => p
  | some w =>
    if w.owner = r.node ∧ r.kind ≠ 26 ∧ r.kind ≠ 27 then { p with corr := { p.corr with window := none } } else p

/-- R177: the steps that decide a request. `flen` is the length of the request's fields where the owning rule does not
place its own length check, and `block` is the owning block's decision, made against the correction window as it stood
when the request was taken. -/
def answerTo (p : Part) (r : Request) (flen : Option Nat) (block : Request → Part → Answer) : Answer :=
  if p.phase = .starting then .refuse p .busy
  else if r.tooShort then .refuse p .badLength
  else
    match classOfKind r.kind with
    | none => .refuse p .unknownKind
    | some c =>
      if entitled p c r.node = false then .refuse p .notAuthorised
      else if (flen.getD r.fieldLength) ≠ r.fieldLength then .refuse p .badLength
      else block r p

/-- R177: the oldest request can be taken: the transmit queue has a free place, and no PART RESET waits (R204). -/
def canTake (p : Part) : Bool := decide (p.port.tx.length < 8) && !p.port.resetPending

/-- R177, R178: a request that has left the receive queue is dealt with whole, and its reply enters the transmit queue
with the part node as it stood when the request was taken (R181). -/
def dealWith (p : Part) (r : Request) (flen : Option Nat) (block : Option CorrWindow → Request → Part → Answer) : Part :=
  let a := answerTo (closeWindowFor p r) r flen (block p.corr.window)
  let q := a.part
  q.withPort { q.port with tx := q.port.tx ++ [replyMessage p.store.working.partNode r a.status a.fields] }

/-- R177: the oldest request is taken if it is of a kind that `accepts` names. -/
def takeOldest (accepts : Nat → Bool) (flen : Option Nat) (block : Option CorrWindow → Request → Part → Answer)
    (s : State) : Host.Outcome State Fault Refusal :=
  eventOf s fun p =>
    match p.port.rx with
    | [] => p
    | r :: rest =>
      if canTake p && accepts r.kind then dealWith (p.withPort { p.port with rx := rest }) r flen block else p

/-- R177: the taking of a request of one kind, whose fields have a fixed length. -/
def takeKind (kind flen : Nat) (block : Request → Part → Answer) (s : State) : Host.Outcome State Fault Refusal :=
  takeOldest (· == kind) (some flen) (fun _ => block) s

/-- R177: the taking of a request of one kind that places its own length check. -/
def takeOpenKind (kind : Nat) (block : Request → Part → Answer) (s : State) : Host.Outcome State Fault Refusal :=
  takeOldest (· == kind) none (fun _ => block) s

/-- UNKNOWN_KIND_REQUEST (R177, step 3). -/
def execUnknownKindRequest (s : State) : Host.Outcome State Fault Refusal :=
  takeOldest (fun k => (classOfKind k).isNone) none (fun _ _ p => .refuse p .unknownKind) s

/-! ### The port's own requests -/

/-- R188: the fields of a STATUS reply, in the order of the table. -/
def statusFields (p : Part) : List Byte :=
  [byte p.travel.originState.code, byte p.travel.direction.code] ++ writeInt 4 (chainageC p) ++
    [byte p.travel.motion.code, byte p.travel.lastMove.code,
     byte p.cycle.phase.code, byte p.cycle.causes.bits, byte p.cycle.mode.code] ++
    writeOptional 4 (p.cycle.current.map Int.ofNat) ++
    [byte p.ctxH.state.code, byte (deadCode (p.ctxH.dead.map (·.1))),
     byte p.ctxV.state.code, byte (deadCode (p.ctxV.dead.map (·.1))),
     byte p.queue.records.length] ++
    writeInt 4 (latchCode p.queue.latch) ++ writeInt 1 p.trim ++ writeInt 1 p.port.authority ++
    [byte p.store.status.code, byte (bit p.port.overrun)]

/-- STATUS (R188): the reply carries OVERRUN as it stands, and OVERRUN is cleared. A STATUS that is refused does
not clear it (log entry 26). -/
def execStatus (s : State) : Host.Outcome State Fault Refusal :=
  takeKind 1 0 (fun _ p => .ok (p.withPort { p.port with overrun := false }) (statusFields p)) s

/-- R189: the part code. -/
def partCode : Int := 2460

/-- R189: the fields of an IDENTIFY reply. The part code takes 2 bytes and the silicon revision 1. DESIGN CHOICE (log entry
22). -/
def identifyFields (p : Part) : List Byte :=
  writeInt 2 partCode ++ [byte Config.siliconRevision] ++ writeInt 1 p.store.working.partNode ++
    writeInt 1 p.store.working.supervisorNode

/-- IDENTIFY (R189). -/
def execIdentify (s : State) : Host.Outcome State Fault Refusal :=
  takeKind 2 0 (fun _ p => .ok p (identifyFields p)) s

/-- The part with another authority holder. -/
def setAuthority (p : Part) (node : Int) : Part := p.withPort { p.port with authority := node }

/-- AUTH_GIVE (R180). -/
def execAuthGive (s : State) : Host.Outcome State Fault Refusal :=
  takeKind 3 1 (fun r p =>
    let node := fieldNat r.fields 0 1
    if 15 < node ∨ (node : Int) = p.store.working.partNode then .refuse p .badField
    else .ok (setAuthority p node) (writeInt 1 node)) s

/-- AUTH_TAKE (R181). -/
def execAuthTake (s : State) : Host.Outcome State Fault Refusal :=
  takeKind 4 0 (fun _ p =>
    let node := p.store.working.supervisorNode
    .ok (setAuthority p node) (writeInt 1 node)) s

/-- PART_RESET (R204): refused with BUSY during a save; otherwise taken, and from then on the port takes no request and
admits no report. -/
def execPartReset (s : State) : Host.Outcome State Fault Refusal :=
  takeKind 13 0 (fun _ p =>
    if p.store.save.isSome then .refuse p .busy
    else .ok (p.withPort { p.port with resetPending := true })) s

/-! ### Frames out, the link and the reset (R182, R187, R204) -/

/-- R204: the reset takes effect: every block takes its values after PART RESET; the working settings record, the copy and
the store status are kept. -/
def resetPart (p : Part) : Part := .afterReset p.store p.lines

/-- R187: the link restart, at which a PART RESET that waits takes effect (R204). -/
def restartLink (p : Part) : Part :=
  if p.port.resetPending then resetPart p
  else
    { p with port := { p.port with link := .on, rx := [], tx := [], authority := p.store.working.supervisorNode }
             corr := { p.corr with window := none } }

/-- R182: the head message has been sent and leaves the queue; when it is the reply of a PART RESET, which is the last
message then, the reset takes effect (R204). -/
def sendHead (p : Part) (rest : List Message) : Part :=
  if p.port.resetPending ∧ rest = [] then resetPart p else p.withPort { p.port with tx := rest }

/-- FRAME_TRANSMITTED (R182). In BUS_OFF the port sends no frame (R187). -/
def execFrameTransmitted (s : State) : Host.Outcome State Fault Refusal :=
  eventOf s fun p =>
    match p.port.link, p.port.tx with
    | .on, _ :: rest => sendHead p rest
    | _, _ => p

/-- BUS_OFF (R187). -/
def execBusOff (s : State) : Host.Outcome State Fault Refusal :=
  eventOf s fun p => p.withPort { p.port with link := .busOff }

/-- LINK_RESTART (R187): the completion of the recovery from BUS_OFF. -/
def execLinkRestart (s : State) : Host.Outcome State Fault Refusal :=
  eventOf s fun p =>
    match p.port.link with
    | .on => p
    | .busOff => restartLink p

/-- PART_RESET_TAKES_EFFECT (R204): the event in which the reply's frame is sent, or the link restart before that. -/
def execPartResetTakesEffect (s : State) : Host.Outcome State Fault Refusal :=
  eventOf s fun p =>
    if p.port.resetPending then
      match p.port.link, p.port.tx with
      | .on, [_] => resetPart p
      | .busOff, _ => resetPart p
      | _, _ => p
    else p

/-! ### Admissions (R183) -/

/-- R183: the report of a source is admitted when the arbiter's turn is its. -/
def admitInTurn (source : ReportSource) (p : Part) : Part :=
  if canAdmit p && decide (firstWaiting p.port = some source) then admitSource p source else p

/-- HALT (R184). -/
def execHalt (s : State) : Host.Outcome State Fault Refusal := eventOf s (admitInTurn .halt)

/-- STOP_POINT (R184). -/
def execStopPoint (s : State) : Host.Outcome State Fault Refusal := eventOf s (admitInTurn .stopPoint)

/-- EVENT (R185): the first entry in the arbiter's order, when neither a HALT nor a STOP POINT waits. -/
def execEvent (s : State) : Host.Outcome State Fault Refusal :=
  eventOf s fun p =>
    match firstWaiting p.port with
    | some (.event k) => admitInTurn (.event k) p
    | _ => p

/-- SLEEPER_DONE (R54, R183): with no other report waiting, the offered record's report is accepted; history may lose a
record, and the record in position is renewed (R45). -/
def execSleeperDone (s : State) : Host.Outcome State Fault Refusal :=
  eventOf s fun p =>
    match canAdmit p, firstWaiting p.port, offeredRecord p.queue with
    | true, none, some r => renewAndStart (acceptRecord p r)
    | _, _, _ => p

end Sys2Proof.Machine
end

