-- ==== Sys2Proof/Machine/Corrections.lean ====
section
/-! DEFINITION. Requests to the front correction table and the lift trim (chapter 6). Meanings: CORR_GRID, CORR_WINDOW,
CORR_DATA, CORR_READ, TRIM_SET, TRIM_UP, TRIM_DOWN. -/

namespace Sys2Proof.Machine
open Sys2Proof

/-- The part with the correction table replaced. -/
def Part.withCorr (p : Part) (c : Corrections) : Part := { p with corr := c }

/-! ### Grid and window (R99, R100) -/

/-- CORR_GRID (R99): decided against the window as it stood when the request was taken (R101). A field out of range is answered
BAD_FIELD before an open window is answered BUSY. DESIGN CHOICE (log entry 28). -/
def execCorrGrid (s : State) : Host.Outcome State Fault Refusal :=
  takeOldest (· == 24) (some 8) (fun window r p =>
    let base := fieldInt r.fields 0 4
    let spacing := fieldNat r.fields 4 4
    if inChainageRange base = false ∨ spacing < 1000 ∨ 20000 < spacing then .refuse p .badField
    else if window.isSome then .refuse p .busy
    else .ok (p.withCorr { p.corr with entries := [], base := base, spacing := spacing })) s

/-- CORR_WINDOW (R100). -/
def execCorrWindow (s : State) : Host.Outcome State Fault Refusal :=
  takeKind 25 5 (fun r p =>
    let first := fieldNat r.fields 0 2
    let last := fieldNat r.fields 2 2
    match windowModeOfCode (fieldNat r.fields 4 1) with
    | none => .refuse p .badField
    | some mode =>
      if 255 < first ∨ 255 < last ∨ last < first then .refuse p .badField
      else
        let w : CorrWindow := { owner := r.node, first := first, last := last, cursor := first, mode := mode }
        .ok (p.withCorr { p.corr with window := some w }) (writeInt 2 first)) s

/-! ### Data (R102) -/

/-- R102: the cursor advances by one entry, and from the last entry it wraps to the first. -/
def advanceCursor (w : CorrWindow) : CorrWindow :=
  { w with cursor := if w.cursor = w.last then w.first else w.cursor + 1 }

/-- R102: the unset marker. -/
def unsetMarker : Int := -32768

/-- R102: what a value of a pair stores. -/
def storedHalf (v : Int) : Option Int := if v = unsetMarker then none else some (clampTo (-2000) 2000 v)

/-- R102: a value was replaced by an end of the range. -/
def halfClamped (v : Int) : Bool := decide (v ≠ unsetMarker) && decide (clampTo (-2000) 2000 v ≠ v)

/-- R102, R175: the pairs of a field list. -/
def pairsOf : List Byte → List (Int × Int)
  | b0 :: b1 :: b2 :: b3 :: rest => (readInt [b0, b1], readInt [b2, b3]) :: pairsOf rest
  | _ => []

/-- R102: one pair is written into the entry at the cursor, which then advances. -/
def writePair (c : Table CorrEntry × CorrWindow) (pair : Int × Int) : Table CorrEntry × CorrWindow :=
  (setEntry c.1 c.2.cursor { lateral := storedHalf pair.1, vertical := storedHalf pair.2 }, advanceCursor c.2)

/-- CORR_DATA (R102). -/
def execCorrData (s : State) : Host.Outcome State Fault Refusal :=
  takeOpenKind 26 (fun r p =>
    match p.corr.window with
    | none => .refuse p .noWindow
    | some w =>
      if w.owner ≠ r.node then .refuse p .notOwner
      else if r.fieldLength % 4 ≠ 0 ∨ r.fieldLength = 0 ∨ 56 < r.fieldLength then .refuse p .badLength
      else
        let pairs := pairsOf r.fields
        let (entries, w) := pairs.foldl writePair (p.corr.entries, w)
        let st : Status := if pairs.any fun x => halfClamped x.1 || halfClamped x.2 then .clamped else .ok
        ⟨p.withCorr { p.corr with entries := entries, window := some w }, st, writeInt 2 w.cursor⟩) s

/-! ### Reading (R103) -/

/-- R103: the fields that return an entry; an unset half is carried as the unset marker (log entry 23). -/
def entryFields (c : Corrections) (n : Nat) : List Byte :=
  let e := entryAt c.entries n
  writeInt 2 n ++ writeInt 4 (c.base + n * c.spacing) ++ writeInt 2 (e.lateral.getD unsetMarker) ++
    writeInt 2 (e.vertical.getD unsetMarker)

/-- R103: the cursor form. -/
def readAtCursor (r : Request) (p : Part) : Answer :=
  match p.corr.window with
  | none => .refuse p .noWindow
  | some w =>
    if w.owner ≠ r.node then .refuse p .notOwner
    else
      let w' := match w.mode with
        | .edit => w
        | .write => advanceCursor w
      .ok (p.withCorr { p.corr with window := some w' }) (entryFields p.corr w.cursor ++ writeInt 2 w'.cursor)

/-- CORR_READ (R103). -/
def execCorrRead (s : State) : Host.Outcome State Fault Refusal :=
  takeOpenKind 27 (fun r p =>
    if r.fieldLength = 0 then .refuse p .badLength
    else
      match fieldNat r.fields 0 1 with
      | 0 => if r.fieldLength ≠ 1 then .refuse p .badLength else readAtCursor r p
      | 1 =>
        if r.fieldLength ≠ 3 then .refuse p .badLength
        else
          let n := fieldNat r.fields 1 2
          if 255 < n then .refuse p .badField else .ok p (entryFields p.corr n)
      | _ => .refuse p .badField) s

/-! ### Trim (R105 to R107) -/

/-- R106, R107: the trim becomes a value clamped to −40..+40, and the reply says whether it was replaced by an end. -/
def setTrim (p : Part) (v : Int) : Answer :=
  let t := clampTo (-40) 40 v
  ⟨{ p with trim := t }, if t = v then .ok else .clamped, writeInt 1 t⟩

/-- TRIM_SET (R106). -/
def execTrimSet (s : State) : Host.Outcome State Fault Refusal :=
  takeKind 28 1 (fun r p => setTrim p (fieldInt r.fields 0 1)) s

/-- TRIM_UP (R107). -/
def execTrimUp (s : State) : Host.Outcome State Fault Refusal :=
  takeKind 29 0 (fun _ p => setTrim p (p.trim + 1)) s

/-- TRIM_DOWN (R107). -/
def execTrimDown (s : State) : Host.Outcome State Fault Refusal :=
  takeKind 30 0 (fun _ p => setTrim p (p.trim - 1)) s

end Sys2Proof.Machine
end

