-- ==== Sys2Proof/Machine/CycleRequests.lean ====
section
/-! DEFINITION. Requests to the cycle controller (R150, R153, R162, R168, R169). Meanings: MODE_SET, CYCLE_START, CYCLE_STOP,
UNITS_RAISE, FAULT_CLEAR. -/

namespace Sys2Proof.Machine
open Sys2Proof

/-- R150: the mode is set; MODE SET AUTO is a start event. -/
def setMode (p : Part) (m : Mode) : Part :=
  let q := p.withCycle { p.cycle with mode := m }
  match m with
  | .auto => startEvent q
  | .manual => q

/-- MODE_SET (R150). -/
def execModeSet (s : State) : Host.Outcome State Fault Refusal :=
  takeKind 40 1 (fun r p =>
    match modeOfCode (fieldNat r.fields 0 1) with
    | none => .refuse p .badField
    | some m => .ok (setMode p m)) s

/-- CYCLE_START (R153). -/
def execCycleStart (s : State) : Host.Outcome State Fault Refusal :=
  takeKind 41 0 (fun _ p =>
    if p.cycle.phase ≠ .idle then .refuse p .busy
    else if p.cycle.mode = .auto then .refuse p .badState
    else
      match startableRecord p with
      | none => .refuse p .badState
      | some r => .ok (startCycle p r) (writeInt 4 r.number)) s

/-- CYCLE_STOP (R162). -/
def execCycleStop (s : State) : Host.Outcome State Fault Refusal :=
  takeKind 42 0 (fun _ p => .ok (stopCycle p)) s

/-- R168: the lockout raise is restarted, or started. -/
def raiseUnits (p : Part) : Part :=
  if p.cycle.lockoutRaise then p.withCycle { p.cycle with phaseTimer := some .raise } else startLockoutRaise p

/-- UNITS_RAISE (R168). -/
def execUnitsRaise (s : State) : Host.Outcome State Fault Refusal :=
  takeKind 43 0 (fun _ p =>
    if p.cycle.phase ≠ .lockout ∨ p.lines.estop = true then .refuse p .badState else .ok (raiseUnits p)) s

/-- R169: the lockout is cleared. -/
def clearLockout (p : Part) : Part :=
  p.withCycle { p.cycle with
    phase := .idle
    causes := noCauses
    lockoutRaise := false
    phaseTimer := none
    vertical := noVertical
    fold := noArms }

/-- FAULT_CLEAR (R169): when taken, it is a start event (R152). -/
def execFaultClear (s : State) : Host.Outcome State Fault Refusal :=
  takeKind 44 0 (fun _ p =>
    match p.cycle.phase with
    | .idle => .ok (startEvent p)
    | .lockout =>
      if p.lines.estop = true ∨ allClear p = false then .refuse p .badState
      else .ok (startEvent (clearLockout p))
    | _ => .refuse p .badState) s

end Sys2Proof.Machine
end

