-- ==== Sys2Proof/Machine/Events.lean ====
section
/-! DEFINITION. The timers of the drive and of the cycle, the fold confirm lines and the emergency stop line (chapters 8
and 9). Meanings: MOVE_TIMER_EXPIRY, RELEASE_TIMER_EXPIRY, FOLD_TIMEOUT, PENETRATION_TIMEOUT, SQUEEZE_TIMER_EXPIRY,
RAISE_TIMEOUT, LOCKOUT_RAISE_TIMEOUT, FOLD_CONFIRM, EMERGENCY_STOP_ASSERTED, EMERGENCY_STOP_RELEASED. -/

namespace Sys2Proof.Machine
open Sys2Proof

/-- MOVE_TIMER_EXPIRY (R138). -/
def execMoveTimerExpiry (axis : Axis) (s : State) : Host.Outcome State Fault Refusal :=
  eventOf s fun p =>
    match expireMove p axis with
    | (p, true) => positioned p
    | (p, false) => p

/-- RELEASE_TIMER_EXPIRY (R142). -/
def execReleaseTimerExpiry (s : State) : Host.Outcome State Fault Refusal :=
  eventOf s fun p =>
    match p.drive.releaseTimer with
    | none => p
    | some _ =>
      let (q, residuals) := endRelease p
      cycleReleaseEnd q residuals

/-- R156: every awaited unit still unconfirmed takes the role FOLD_FAULT and the flag FOLD_FAULT. -/
def foldFaults (p : Part) : Part :=
  p.withCycle { p.cycle with
    units := mapUnits p fun _ s =>
      if s.role = .undecided then { s with role := .foldFault, flags := { s.flags with foldFault := true } } else s }

/-- FOLD_TIMEOUT (R156). -/
def execFoldTimeout (s : State) : Host.Outcome State Fault Refusal :=
  eventOf s fun p =>
    if p.cycle.phase = .positioning ∧ p.cycle.folding = .inProgress ∧ p.cycle.phaseTimer = some .fold then
      endFolding (foldFaults p)
    else p

/-- R157: each LOWERED unit not at depth has its vertical demand set to 0 and takes the flag PEN_SHORT. -/
def penetrationShort (p : Part) : Part :=
  let short := fun u => lowered p u && !(p.unit u).atDepth
  p.withCycle { p.cycle with
    vertical := PerUnit.make fun u => if short u then .rest else p.cycle.vertical.get u
    units := mapUnits p fun u s => if short u then { s with flags := { s.flags with penShort := true } } else s }

/-- PENETRATION_TIMEOUT (R157). -/
def execPenetrationTimeout (s : State) : Host.Outcome State Fault Refusal :=
  eventOf s fun p =>
    if p.cycle.phase = .penetrating ∧ p.cycle.phaseTimer = some .penetration then enterSqueezing (penetrationShort p)
    else p

/-- R158: the squeeze timer is the one that runs. -/
def squeezeTimerRuns (c : Cycle) : Bool :=
  match c.phaseTimer with
  | some (.squeeze _) => true
  | _ => false

/-- SQUEEZE_TIMER_EXPIRY (R158). -/
def execSqueezeTimerExpiry (s : State) : Host.Outcome State Fault Refusal :=
  eventOf s fun p =>
    if p.cycle.phase = .squeezing ∧ squeezeTimerRuns p.cycle = true then
      endSqueezing enterPenetrating (endSqueezeOf (fun _ => true) true p)
    else p

/-- RAISE_TIMEOUT (R159): with a unit below the clear height the cycle locks out; with every unit clear the raise has
ended (log entry 15). -/
def execRaiseTimeout (s : State) : Host.Outcome State Fault Refusal :=
  eventOf s fun p =>
    if p.cycle.phase = .raising ∧ p.cycle.phaseTimer = some .raise then
      if allClear p then endRaise enterPenetrating p else stuckFault p
    else p

/-- R167: the raise timer of the lockout raise runs out with a unit below the clear height. -/
def lockoutRaiseStuck (p : Part) : Part :=
  addCause (p.withCycle { p.cycle with vertical := noVertical, lockoutRaise := false, phaseTimer := none }) .unitStuck none

/-- LOCKOUT_RAISE_TIMEOUT (R167). -/
def execLockoutRaiseTimeout (s : State) : Host.Outcome State Fault Refusal :=
  eventOf s fun p =>
    if p.cycle.phase = .lockout ∧ p.cycle.lockoutRaise = true ∧ p.cycle.phaseTimer = some .raise then
      if allClear p then afterLockoutDepth p else lockoutRaiseStuck p
    else p

/-- A fold confirm line takes a level. -/
def setFoldLine (p : Part) (arm : Arm) (folded : Bool) : Part :=
  { p with lines := { p.lines with folds := p.lines.folds.set arm folded } }

/-- FOLD_CONFIRM (R156): the lines are read by the folding step and by nothing else (R147). -/
def execFoldConfirm (arm : Arm) (folded : Bool) (s : State) : Host.Outcome State Fault Refusal :=
  let p := setFoldLine s.part arm folded
  .next (s.withPart
    (if p.powered ∧ p.cycle.phase = .positioning ∧ p.cycle.folding = .inProgress then confirmUnits p else p))

/-- The emergency stop line takes a level. -/
def setEstopLine (p : Part) (asserted : Bool) : Part := { p with lines := { p.lines with estop := asserted } }

/-- EMERGENCY_STOP_ASSERTED (R144, R165): the line becomes asserted. -/
def execEmergencyStopAsserted (s : State) : Host.Outcome State Fault Refusal :=
  let p := setEstopLine s.part true
  .next (s.withPart (if s.part.powered ∧ s.part.lines.estop = false then cycleEstop p else p))

/-- EMERGENCY_STOP_RELEASED (R165): the release changes nothing in the controller, and no move resumes (R144). -/
def execEmergencyStopReleased (s : State) : Host.Outcome State Fault Refusal :=
  .next (s.withPart (setEstopLine s.part false))

end Sys2Proof.Machine
end

