-- ==== Sys2Proof/Machine/Patterns.lean ====
section
/-! DEFINITION. Requests to the obstacle pattern slots (R33 to R35). Meanings: PATTERN_SET, PATTERN_ENABLE, PATTERN_READ. -/

namespace Sys2Proof.Machine
open Sys2Proof

/-- The part with the pattern slots replaced. -/
def Part.withPatterns (p : Part) (t : PerSlot Pattern) : Part := { p with scanner := { p.scanner with patterns := t } }

/-- R33: in a stored cell, the lines of the value outside the mask are absent. -/
def maskedLines (value mask : ScanLines) : ScanLines :=
  ⟨value.se && mask.se, value.fl && mask.fl, value.fr && mask.fr, value.cm && mask.cm⟩

/-- R33, R175: a stored cell from its byte, the value in the low four bits and the mask in the high four. -/
def cellOfByte (b : Byte) : PatternCell :=
  let mask := linesOfByte b.toNat 4
  { value := maskedLines (linesOfByte b.toNat 0) mask, mask := mask }

/-- R175: a cell as a byte. -/
def cellByte (c : PatternCell) : Byte := byte (ScanLines.bits c.value + 16 * ScanLines.bits c.mask)

/-- R193: an enable code of PATTERN SET. -/
def enableOfCode : Nat → Option Bool
  | 0 => some false | 1 => some true | _ => none

/-- PATTERN_SET (R33). The pattern's slot number takes 2 bytes and its anchor 1 (log entry 25). -/
def execPatternSet (s : State) : Host.Outcome State Fault Refusal :=
  takeOpenKind 32 (fun r p =>
    let fs := r.fields
    let slot := fieldNat fs 0 2
    let n := fieldNat fs 3 1
    let anchor := fieldInt fs 4 1
    let folds := armsOfByte (fieldNat fs 6 1)
    let insertions := fieldNat fs 7 1
    if fs.length < 8 then .refuse p .badLength
    else
      match enableOfCode (fieldNat fs 2 1), actionOfCode (fieldNat fs 5 1) with
      | some enabled, some action =>
        if slot < 1 ∨ 6 < slot ∨ n < 1 ∨ 48 < n ∨ anchor < -16 ∨ 16 < anchor ∨ 4 < insertions ∨
            ArmSet.isEmpty folds = decide (action = .fold) then .refuse p .badField
        else if fs.length - 8 ≠ n then .refuse p .badLength
        else
          .ok (p.withPatterns (p.scanner.patterns.set slot
            { enabled := enabled, anchor := anchor, cells := (fs.drop 8).map cellOfByte, action := action,
              foldSet := folds, insertions := insertions }))
      | _, _ => .refuse p .badField) s

/-- R34: what a code of PATTERN ENABLE makes of a slot: 0 OFF, 1 ON, 2 KEEP. -/
def switchPattern (code : Nat) (pt : Pattern) : Pattern :=
  match code with
  | 0 => { pt with enabled := false }
  | 1 => { pt with enabled := true }
  | _ => pt

/-- R34: the slots after a PATTERN ENABLE. -/
def switchPatterns (fs : List Byte) (t : PerSlot Pattern) : PerSlot Pattern :=
  { s1 := switchPattern (fieldNat fs 0 1) t.s1, s2 := switchPattern (fieldNat fs 1 1) t.s2,
    s3 := switchPattern (fieldNat fs 2 1) t.s3, s4 := switchPattern (fieldNat fs 3 1) t.s4,
    s5 := switchPattern (fieldNat fs 4 1) t.s5, s6 := switchPattern (fieldNat fs 5 1) t.s6 }

/-- PATTERN_ENABLE (R34). -/
def execPatternEnable (s : State) : Host.Outcome State Fault Refusal :=
  takeKind 33 6 (fun r p =>
    if r.fields.any fun b => decide (2 < b.toNat) then .refuse p .badField
    else .ok (p.withPatterns (switchPatterns r.fields p.scanner.patterns))) s

/-- R35: the fields of a PATTERN READ reply. -/
def patternFields (pt : Pattern) : List Byte :=
  [byte (bit pt.enabled), byte pt.cells.length] ++ writeInt 1 pt.anchor ++
    [byte pt.action.code, byte (ArmSet.bits pt.foldSet), byte pt.insertions] ++ pt.cells.map cellByte

/-- PATTERN_READ (R35). -/
def execPatternRead (s : State) : Host.Outcome State Fault Refusal :=
  takeKind 34 2 (fun r p =>
    match p.scanner.patterns.get? (fieldNat r.fields 0 2) with
    | none => .refuse p .badField
    | some pt => .ok p (patternFields pt)) s

end Sys2Proof.Machine
end

