-- ==== Sys2Proof/Machine/PlanMemory.lean ====
section
/-! DEFINITION. Requests to plan memory and to the plan contexts (chapters 4 and 5). Meanings: PLAN_WRITE, PLAN_LINK,
PLAN_CLEAR, PLAN_READ, PLAN_RUN, PLAN_WAKE, PLAN_STOP. -/

namespace Sys2Proof.Machine
open Sys2Proof

/-! ### Descriptors in bytes (R191) -/

/-- R57 to R59: a value within a range. -/
def within (lo hi x : Int) : Bool := decide (lo ≤ x ∧ x ≤ hi)

/-- R60: a slot number lies in 0..511. -/
def slotNumber (n : Nat) : Bool := decide (n ≤ 511)

/-- R63, step 3: an optional link, refused for an unknown presence code or a link outside 0..511. -/
def linkField (fs : List Byte) (at_ : Nat) : Option (Option Nat) :=
  (presence (fieldNat fs at_ 1) (fieldNat fs (at_ + 1) 2)).filter fun l => (l.map slotNumber).getD true

/-- R63: the length F that a PLAN WRITE of a kind must have, none for a kind code that is none of the six. -/
def planWriteLength (fs : List Byte) (kind : Nat) : Option Nat :=
  match kind with
  | 1 => some (if 20 ≤ fs.length ∧ fieldNat fs 19 1 = 1 then 24 else 20)
  | 2 => some 14
  | 3 => some 5
  | 4 => some 8
  | 5 => some 3
  | 6 => some 7
  | _ => none

/-- R57, R63, R191: a SEGMENT-H, none when a field lies outside its range. -/
def segmentHOf (fs : List Byte) : Option SegmentH :=
  let length : Int := fieldNat fs 3 4
  let k0 := fieldInt fs 7 2
  let k1 := fieldInt fs 9 2
  let c0 := fieldInt fs 11 2
  let c1 := fieldInt fs 13 2
  let x0 := fieldInt fs 20 2
  let x1 := fieldInt fs 22 2
  match railOfCode (fieldNat fs 15 1), linkField fs 16, presence (fieldNat fs 19 1) (x0, x1) with
  | some rail, some link, some diverging =>
    if within 500 1000000 length && within (-20000) 20000 k0 && within (-20000) 20000 k1 && within (-2000) 2000 c0 &&
        within (-2000) 2000 c1 &&
        (match diverging with
         | none => true
         | some x => within (-2000) 6000 x.1 && within (-2000) 6000 x.2) then
      some { length := length, curvatureStart := k0, curvatureEnd := k1, cantStart := c0, cantEnd := c1,
             reference := rail, diverging := diverging, link := link }
    else none
  | _, _, _ => none

/-- R58, R63, R191: a SEGMENT-V, none when a field lies outside its range. -/
def segmentVOf (fs : List Byte) : Option SegmentV :=
  let length : Int := fieldNat fs 3 4
  let k := fieldInt fs 7 2
  let base : Int := fieldNat fs 9 2
  match linkField fs 11 with
  | some link =>
    if within 500 1000000 length && within (-2000) 2000 k && within 0 1500 base then
      some { length := length, curvature := k, baseLift := base, link := link }
    else none
  | none => none

/-- R59, R63, R191: the descriptor of a PLAN WRITE, none when a field is outside its range. -/
def descriptorOf (fs : List Byte) (kind : Nat) : Option Descriptor :=
  match kind with
  | 1 => (segmentHOf fs).map .segmentH
  | 2 => (segmentVOf fs).map .segmentV
  | 3 =>
    let target := fieldNat fs 3 2
    if slotNumber target then some (.branch target) else none
  | 4 =>
    let target := fieldNat fs 3 2
    match linkField fs 5 with
    | some (some link) => if slotNumber target then some (.call target link) else none
    | _ => none
  | 5 => some .ret
  | 6 =>
    let count := fieldNat fs 3 1
    match linkField fs 4 with
    | some (some link) => if 1 ≤ count then some (.repeatRun count link) else none
    | _ => none
  | _ => none

/-- An optional slot number as an integer field. -/
def linkInt (l : Option Nat) : Option Int := l.map Int.ofNat

/-- R191: the kind code of a descriptor and its fields, in the form of PLAN WRITE. -/
def descriptorFields : Descriptor → List Byte
  | .segmentH s =>
    byte 1 :: writeInt 4 s.length ++ writeInt 2 s.curvatureStart ++ writeInt 2 s.curvatureEnd ++
      writeInt 2 s.cantStart ++ writeInt 2 s.cantEnd ++ [byte s.reference.code] ++ writeOptional 2 (linkInt s.link) ++
      (match s.diverging with
       | none => [byte 0]
       | some x => byte 1 :: writeInt 2 x.1 ++ writeInt 2 x.2)
  | .segmentV s =>
    byte 2 :: writeInt 4 s.length ++ writeInt 2 s.curvature ++ writeInt 2 s.baseLift ++ writeOptional 2 (linkInt s.link)
  | .branch target => byte 3 :: writeInt 2 target
  | .call target link => byte 4 :: writeInt 2 target ++ writeOptional 2 (some (link : Int))
  | .ret => [byte 5]
  | .repeatRun count link => byte 6 :: byte count :: writeOptional 2 (some (link : Int))

/-! ### Plan memory (R63 to R68) -/

/-- The part with one slot of plan memory replaced. -/
def Part.withSlot (p : Part) (k : Nat) (v : Slot) : Part := { p with plan := setSlot p.plan k v }

/-- PLAN_WRITE (R63, R64). The slot is checked as soon as the fields hold it; fields that do not reach the kind code have the
length of no kind (log entry 20). -/
def execPlanWrite (s : State) : Host.Outcome State Fault Refusal :=
  takeOpenKind 16 (fun r p =>
    let fs := r.fields
    let slot := fieldNat fs 0 2
    let kind := fieldNat fs 2 1
    if fs.length < 2 then .refuse p .badLength
    else if slotNumber slot = false then .refuse p .badField
    else if fs.length < 3 then .refuse p .badLength
    else
      match planWriteLength fs kind with
      | none => .refuse p .badField
      | some len =>
        if fs.length ≠ len then .refuse p .badLength
        else
          match descriptorOf fs kind with
          | none => .refuse p .badField
          | some desc =>
            if (slotAt p.plan slot).state = .inUse then .refuse p .slotBusy
            else .ok (p.withSlot slot { state := .loaded, code := none, contents := some desc })) s

/-- R65: a segment descriptor with its link replaced; a flow descriptor has no link to set. -/
def relink (link : Option Nat) : Descriptor → Option Descriptor
  | .segmentH s => some (.segmentH { s with link := link })
  | .segmentV s => some (.segmentV { s with link := link })
  | _ => none

/-- PLAN_LINK (R65). A field that is refused with BAD_FIELD is so before a slot without a segment is refused with BAD_STATE.
DESIGN CHOICE (log entry 28). -/
def execPlanLink (s : State) : Host.Outcome State Fault Refusal :=
  takeKind 17 5 (fun r p =>
    let slot := fieldNat r.fields 0 2
    match linkField r.fields 2 with
    | none => .refuse p .badField
    | some link =>
      if slotNumber slot = false then .refuse p .badField
      else
        let old := slotAt p.plan slot
        match old.contents.bind (relink link) with
        | none => .refuse p .badState
        | some desc => .ok (p.withSlot slot { old with contents := some desc })) s

/-- R67: the slots of a range emptied. -/
def clearSlots (plan : Table Slot) (first last : Nat) : Table Slot :=
  plan.filter fun x => decide (x.1 < first ∨ last < x.1)

/-- R67: a slot of a range is IN_USE. -/
def rangeInUse (plan : Table Slot) (first last : Nat) : Bool :=
  plan.any fun x => decide (first ≤ x.1 ∧ x.1 ≤ last) && decide (x.2.state = .inUse)

/-- PLAN_CLEAR (R67). A slot number out of range is answered BAD_FIELD before an IN_USE slot of the range is answered SLOT_BUSY.
DESIGN CHOICE (log entry 28). -/
def execPlanClear (s : State) : Host.Outcome State Fault Refusal :=
  takeKind 18 4 (fun r p =>
    let first := fieldNat r.fields 0 2
    let last := fieldNat r.fields 2 2
    if slotNumber first = false ∨ slotNumber last = false ∨ last < first then .refuse p .badField
    else if rangeInUse p.plan first last then .refuse p .slotBusy
    else .ok { p with plan := clearSlots p.plan first last }) s

/-- A segment record is of a slot. -/
def holdsSlot (r : Option SegmentRecord) (k : Nat) : Bool := (r.map fun x => x.slot == k).getD false

/-- R68, R193: the role of a slot in a context: 1 current, 2 previous, 3 both, none when the context does not hold it. -/
def roleIn (c : Context) (k : Nat) : Option Nat :=
  match holdsSlot c.current k, holdsSlot c.previous k with
  | true, true => some 3
  | true, false => some 1
  | false, true => some 2
  | false, false => none

/-- R68: the context that holds a slot and the slot's role there. -/
def holderOf (p : Part) (k : Nat) : Option (ContextId × Nat) :=
  match roleIn p.ctxH k with
  | some role => some (.h, role)
  | none => (roleIn p.ctxV k).map fun role => (.v, role)

/-- R68, R191: the fields of a PLAN READ reply: the state, the completion code, the holder of an IN_USE slot and the
contents, the last two under presence codes. Nothing follows the presence code 0 of absent contents, which have no kind and so
no size. DESIGN CHOICE (log entry 24). -/
def planReadFields (p : Part) (k : Nat) : List Byte :=
  let v := slotAt p.plan k
  let holder := if v.state = .inUse then holderOf p k else none
  [byte v.state.code, byte (completionCode v.code)] ++
    (match holder with
     | none => [byte 0, byte 0, byte 0]
     | some x => [byte 1, byte x.1.code, byte x.2]) ++
    (match v.contents with
     | none => [byte 0]
     | some desc => byte 1 :: descriptorFields desc)

/-- PLAN_READ (R68). -/
def execPlanRead (s : State) : Host.Outcome State Fault Refusal :=
  takeKind 19 2 (fun r p =>
    let slot := fieldNat r.fields 0 2
    if slotNumber slot = false then .refuse p .badField else .ok p (planReadFields p slot)) s

/-! ### Contexts (R73 to R75, R87, R88) -/

/-- R73, R87: the reply carries the context's state once the request has been carried out. -/
def contextAnswer (p : Part) (i : ContextId) : Answer := .ok p [byte (p.ctx i).state.code]

/-- R75: the context goes ARMED. -/
def armContext (p : Part) (i : ContextId) (first : Nat) (start : Int) : Part :=
  handPlanState (p.setCtx i { p.ctx i with state := .armed, armed := some (first, start) }) i (some first)

/-- R74, R75: PLAN RUN is taken. -/
def runContext (p : Part) (i : ContextId) (first : Nat) (start : Option Int) : Part :=
  match start with
  | none => startContext p i first (chainageC p)
  | some x =>
    if 0 < aheadBy p.travel.direction x (chainageC p) then armContext p i first x else startContext p i first x

/-- PLAN_RUN (R73). -/
def execPlanRun (s : State) : Host.Outcome State Fault Refusal :=
  takeKind 20 8 (fun r p =>
    let fs := r.fields
    let first := fieldNat fs 1 2
    match contextOfCode (fieldNat fs 0 1), presence (fieldNat fs 3 1) (fieldInt fs 4 4) with
    | some i, some start =>
      if slotNumber first = false ∨ (start.map inChainageRange).getD true = false then .refuse p .badField
      else if p.travel.originState = .none then .refuse p .badState
      else if (p.ctx i).state ≠ .stopped then .refuse p .badState
      else contextAnswer (runContext p i first start) i
    | _, _ => .refuse p .badField) s

/-- PLAN_WAKE (R87). -/
def execPlanWake (s : State) : Host.Outcome State Fault Refusal :=
  takeKind 21 1 (fun r p =>
    match contextOfCode (fieldNat r.fields 0 1) with
    | none => .refuse p .badField
    | some i =>
      match (p.ctx i).state with
      | .starved => contextAnswer (wakeContext p i) i
      | .running => contextAnswer p i
      | _ => .refuse p .badState) s

/-- PLAN_STOP (R88). -/
def execPlanStop (s : State) : Host.Outcome State Fault Refusal :=
  takeKind 22 1 (fun r p =>
    match contextOfCode (fieldNat r.fields 0 1) with
    | none => .refuse p .badField
    | some i => .ok (if (p.ctx i).state = .stopped then p else stopContext p i)) s

end Sys2Proof.Machine
end

