-- ==== Sys2Proof/Machine/QueueRequests.lean ====
section
/-! DEFINITION. Requests to the sleeper queue (R48, R51 to R53). Meanings: QUEUE_READ, SKIP_MARK, HALT_CLEAR. -/

namespace Sys2Proof.Machine
open Sys2Proof

/-! ### Reading (R52, R53) -/

/-- R53: a record in a list: its number, and its state with the reported flag of a completed record in bit 7 (log
entry 24). -/
def listedRecord (r : SleeperRecord) : List Byte :=
  writeInt 4 r.number ++ [byte (r.state.code + if r.isReported then 128 else 0)]

/-- R53: the fields of a reply in the list form. -/
def listFields (q : Queue) (start : Nat) : List Byte :=
  let from_ := q.records.filter fun r => decide (start ≤ r.number)
  byte q.records.length :: writeInt 4 (latchCode q.latch) ++ (from_.take 10).flatMap listedRecord ++
    [byte (from_.length - 10)]

/-- R192: the fields of a reply in the record form: the record, then the reported flag. -/
def readRecordFields (r : SleeperRecord) : List Byte := recordFields r ++ [byte (bit r.reported)]

/-- QUEUE_READ (R52, R53). -/
def execQueueRead (s : State) : Host.Outcome State Fault Refusal :=
  takeKind 36 5 (fun r p =>
    let n := fieldNat r.fields 1 4
    match fieldNat r.fields 0 1 with
    | 0 =>
      match recordAt p.queue.records n with
      | none => .refuse p .badState
      | some x => .ok p (readRecordFields x)
    | 1 => .ok p (listFields p.queue n)
    | _ => .refuse p .badField) s

/-! ### SKIP MARK (R51) -/

/-- R51: a record with its skip cause replaced. -/
def withSkip (c : Option SkipCause) (r : SleeperRecord) : SleeperRecord :=
  { r with candidate := { r.candidate with skip := c } }

/-- R51: the skip cause of a record is replaced and the stop point is tested. -/
def markSkip (p : Part) (n : Nat) (c : Option SkipCause) : Part :=
  testStopPoint (p.withRecords (changeRecord p.queue.records n (withSkip c)))

/-- SKIP_MARK (R51): a CLEAR that turns a set flag clear hands SKIP_CLEARED to the controller (R46). An unknown action is
answered BAD_FIELD before a record that cannot be marked is answered BAD_STATE. DESIGN CHOICE (log entry 28). -/
def execSkipMark (s : State) : Host.Outcome State Fault Refusal :=
  takeKind 37 5 (fun r p =>
    let n := fieldNat r.fields 0 4
    let action := fieldNat r.fields 4 1
    if n = 0 ∨ 1 < action then .refuse p .badField
    else
      match recordAt p.queue.records n with
      | none => .refuse p .badState
      | some x =>
        if x.state ≠ .pending ∨ x.candidate.skip = some .allFolded then .refuse p .badState
        else if action = 0 then .ok (markSkip p n (some .manual))
        else if x.candidate.skip.isSome then .ok (startEvent (markSkip p n none))
        else .ok (markSkip p n none)) s

/-! ### HALT CLEAR (R48) -/

/-- R48: the lowest-numbered PENDING record above h that has the halt flag. -/
def nextHalting (rs : List SleeperRecord) (h : Nat) : Option SleeperRecord :=
  rs.find? fun r => decide (h < r.number) && r.candidate.halt && decide (r.state = .pending)

/-- R48: the latch is cleared, and set to the next halting record when there is one, with its HALT report. -/
def rearmLatch (p : Part) (h : Nat) : Part :=
  match nextHalting p.queue.records h with
  | none => { p with queue := { p.queue with latch := none } }
  | some r =>
    handHalt { p with queue := { p.queue with latch := some r.number } }
      { sleeper := r.number, centre := r.candidate.centre }

/-- HALT_CLEAR (R48): the stop point is tested, and LATCH_CLEARED goes to the controller (R46). With the latch clear nothing
changes, as R48 has it, and the test that R50 lists for a HALT CLEAR taken is not made. DESIGN CHOICE (log entry 27). -/
def execHaltClear (s : State) : Host.Outcome State Fault Refusal :=
  takeKind 38 0 (fun _ p =>
    match p.queue.latch with
    | none => .ok p
    | some h => .ok (startEvent (testStopPoint (rearmLatch p h)))) s

end Sys2Proof.Machine
end

