-- ==== Sys2Proof/Machine/Startup.lean ====
section
/-! DEFINITION. Power, samples and start-up (R13, R199, R203). Meanings: POWER_ON, POWER_LOSS, CHANNEL_SAMPLE,
START_UP_SETTLING, END_OF_SAVE. -/

namespace Sys2Proof.Machine
open Sys2Proof

/-! ### Power -/

/-- R203: the load step of power-on: a valid copy becomes the working record; otherwise the factory defaults do, and the
copy is left as it is. -/
def loadedStore (copy : NvCopy) : Store :=
  if copyValid copy then { working := Settings.ofWords copy.words, copy := copy, save := none, status := .loaded }
  else { working := Settings.factory, copy := copy, save := none, status := .defaulted }

/-- POWER_ON (R203). -/
def execPowerOn (s : State) : Host.Outcome State Fault Refusal :=
  .next (s.withPart
    (if s.part.powered then s.part else .afterReset (loadedStore s.part.store.copy) s.part.lines))

/-- R199: the copy that a loss of power leaves: as it was, or, during a save, what had been written. -/
def copyLeft (st : Store) (left : NvCopy) : NvCopy := if st.save.isSome then left else st.copy

/-- R199: the part without power. Only the copy outlives it; what else the part then holds is not looked at until the next
power-on (log entry 2). -/
def unpowered (p : Part) (left : NvCopy) : Part :=
  { Part.afterReset { p.store with copy := copyLeft p.store left, save := none } p.lines with powered := false }

/-- POWER_LOSS (R199). -/
def execPowerLoss (left : NvCopy) (s : State) : Host.Outcome State Fault Refusal :=
  eventOf s fun p => unpowered p left

/-! ### Samples -/

/-- Chapter 8: the axis that closes on a channel. -/
def axisOfChannel : Channel → Option Axis
  | .ln => some .line | .lvl => some .liftL | .lvr => some .liftR | .axs => some .aux | _ => none

/-- Section 9.1: the unit whose depth a channel measures. -/
def unitOfChannel : Channel → Option TampUnit
  | .dlo => some .lo | .dli => some .li | .dri => some .ri | .dro => some .ro | _ => none

/-- R13: the count joins the channel's history. -/
def recordSample (p : Part) (ch : Channel) (level : Int) : Part :=
  { p with history := p.history.set ch (appendCount (p.history.get ch) (convert level)) }

/-- R134, R139: the drive takes a sample, and a POSITIONED goes to the controller. -/
def driveSample (ch : Channel) (p : Part) : Part :=
  match axisOfChannel ch with
  | none => p
  | some x =>
    match updateAxis p x with
    | (p, true) => positioned p
    | (p, false) => p

/-- R147, R158: the controller takes a sample of a depth or a pressure channel. -/
def cycleSample (ch : Channel) (p : Part) : Part :=
  match unitOfChannel ch with
  | some u => depthSample u p
  | none => if ch = .pl ∨ ch = .pr then pressureSample ch p else p

/-- R203: every depth channel holds 8 counts. -/
def depthsReady (p : Part) : Bool := allUnits.all fun u => decide (8 ≤ (p.history.get (depthChannel u)).length)

/-- R171, R203: the cycle's initial state is settled, EVENT STARTED and an EVENT LOCKOUT for a LOCKOUT are handed to the
port together (log entry 9), and the part becomes READY. -/
def settle (p : Part) : Part :=
  let c := settledCycle p
  let q := { p with cycle := c, phase := .ready }
  let q := holdEvent q (.started q.store.status c.phase c.causes)
  afterHandOn (if c.phase = .lockout then holdEvent q (.lockout c.causes (settlingCause p) none) else q)

/-- R203: the sample is the one at which every depth channel first holds 8 counts. -/
def settlesWith (p : Part) (ch : Channel) (level : Int) : Bool :=
  decide (p.phase = .starting) && depthsReady (recordSample p ch level)

/-- R13, R203: one sample of a channel, with all it brings about. -/
def sampleEvent (ch : Channel) (level : Int) (p : Part) : Part :=
  let q := cycleSample ch (driveSample ch (recordSample p ch level))
  if settlesWith p ch level then settle q else q

/-- CHANNEL_SAMPLE (R13). -/
def execChannelSample (ch : Channel) (level : Int) (s : State) : Host.Outcome State Fault Refusal :=
  eventOf s (sampleEvent ch level)

/-- START_UP_SETTLING (R203): the sample at which every depth channel first holds 8 counts. -/
def execStartUpSettling (ch : Channel) (level : Int) (s : State) : Host.Outcome State Fault Refusal :=
  eventOf s fun p => if settlesWith p ch level then sampleEvent ch level p else p

/-! ### The end of a save -/

/-- R199: the store after the read-back comparison. -/
def savedStore (st : Store) (snapshot readBack : NvCopy) : Store :=
  { st with copy := readBack, save := none, status := if readBack = snapshot then .saved else .fault }

/-- END_OF_SAVE (R199): the copy as read back is compared with the snapshot and its checksum. -/
def execEndOfSave (readBack : NvCopy) (s : State) : Host.Outcome State Fault Refusal :=
  eventOf s fun p =>
    match p.store.save with
    | none => p
    | some snapshot =>
      handEvent { p with store := savedStore p.store snapshot readBack } (.storeDone (decide (readBack = snapshot)))

end Sys2Proof.Machine
end

