-- ==== Sys2Proof/Machine/Scanner.lean ====
section
/-! DEFINITION. The sleeper scanner (chapter 2): cells, body detection, classification and obstacle patterns. -/

namespace Sys2Proof.Machine
open Sys2Proof

/-! ### Cells (section 2.1) -/

/-- R20: the window with one cell appended; it holds at most 64. -/
def appendCell (w : List Cell) (c : Cell) : List Cell := (w ++ [c]).drop (w.length - 63)

/-- R19: the multiples of 10 mm that lie beyond the old front and not beyond the new front, nearest first. -/
def cellPositions (d : Direction) (oldFront newFront : Int) : List Int :=
  match d with
  | .ascending =>
    let k := oldFront / 10
    (List.range (newFront / 10 - k).toNat).map fun (i : Nat) => (k + 1 + i) * 10
  | .descending =>
    let k := -((-oldFront) / 10)
    (List.range (k - -((-newFront) / 10)).toNat).map fun (i : Nat) => (k - 1 - i) * 10

/-- R22: a scanner reset; the scan front is placed where the rule that causes it states. -/
def scannerReset (sc : Scanner) (front : Int) : Scanner :=
  { sc with active := true, window := [], phase := .seeking, guardSet := true, body := none, front := some front }

/-! ### Body detection (section 2.2) -/

/-- No seen flag and no gap flag. -/
def noneSeen : Seen := ⟨false, false, false⟩

/-- The FL, FR and CM levels of a cell. -/
def seenIn (l : ScanLines) : Seen := ⟨l.fl, l.fr, l.cm⟩

/-- Flags merged. -/
def Seen.merge (x y : Seen) : Seen := ⟨x.fl || y.fl, x.fr || y.fr, x.cm || y.cm⟩

/-- R23: the pending body that starts at a cell. -/
def startBody (c : Cell) : Body where
  first := c.position
  last := c.position
  length := 1
  seen := seenIn c.lines
  absentRun := 0
  gap := noneSeen
  closing := 0

/-- R24: an SE-present cell extends the body. -/
def extendBody (b : Body) (c : Cell) : Body :=
  { b with
    last := c.position
    length := min 255 ((c.position - b.first).natAbs / 10 + 1)
    seen := (b.seen.merge b.gap).merge (seenIn c.lines)
    gap := noneSeen
    absentRun := 0 }

/-- R24: an SE-absent cell lengthens the absent run. -/
def lengthenGap (b : Body) (c : Cell) : Body :=
  { b with absentRun := b.absentRun + 1, gap := b.gap.merge (seenIn c.lines) }

/-! ### Classification (sections 2.3 and 2.4) -/

/-- R27: the class that a length gives. -/
def classOf (st : Settings) (length : Nat) : SleeperClass :=
  if st.longLimit ≤ (length : Int) then .longBody else if st.wideLimit ≤ (length : Int) then .wide else .standard

/-- R31: a pattern cell agrees with a window cell on every line of its mask. -/
def cellAgrees (pc : PatternCell) (l : ScanLines) : Bool :=
  (!pc.mask.se || pc.value.se == l.se) && (!pc.mask.fl || pc.value.fl == l.fl) &&
    (!pc.mask.fr || pc.value.fr == l.fr) && (!pc.mask.cm || pc.value.cm == l.cm)

/-- R31: pattern cells from an index on, each compared with the window cell of its position; a position that is not in
the window fails. -/
def cellsAgree (d : Direction) (window : List Cell) (first : Int) (index : Int) : List PatternCell → Bool
  | [] => true
  | pc :: rest =>
    (match window.find? fun w => w.position == first + dirSign d * 10 * index with
     | none => false
     | some w => cellAgrees pc w.lines) && cellsAgree d window first (index + 1) rest

/-- R31: an enabled slot whose cells all agree. -/
def patternMatches (d : Direction) (window : List Cell) (first : Int) (pt : Pattern) : Bool :=
  pt.enabled && cellsAgree d window first pt.anchor pt.cells

/-- R32: the union of the fold sets of the matching FOLD slots. -/
def foldUnion (matching : List Pattern) : ArmSet :=
  matching.foldl (fun acc pt => if pt.action = .fold then ArmSet.union acc pt.foldSet else acc) noArms

/-- R32: the override of the lowest-numbered matching slot that has one, else the default. -/
def insertionsOf (st : Settings) (matching : List Pattern) : Nat :=
  ((matching.find? fun pt => pt.insertions != 0).map (·.insertions)).getD st.defaultInsertions.toNat

/-- R27, R32: the skip cause. -/
def skipOf (st : Settings) (cls : SleeperClass) (foldSet : ArmSet) (matching : List Pattern) : Option SkipCause :=
  if ArmSet.isFull foldSet then some .allFolded
  else if matching.any fun pt => pt.action = .skip then some .pattern
  else if cls = .longBody ∧ st.longBodyAction = 0 then some .longBody
  else none

/-- R27, R31, R32: the candidate built from a pending body at its classification event. -/
def classify (st : Settings) (d : Direction) (sc : Scanner) (b : Body) : Candidate :=
  let hits := sc.patterns.map (patternMatches d sc.window b.first)
  let matching := sc.patterns.toList.filter (patternMatches d sc.window b.first)
  let cls := classOf st b.length
  let folds := foldUnion matching
  { centre := (b.first + b.last) / 2
    length := b.length
    sleeperClass := cls
    seen := b.seen
    unfastened := !b.seen.fl || !b.seen.fr
    matched := hits
    foldSet := folds
    skip := skipOf st cls folds matching
    halt := matching.any fun pt => pt.action = .halt
    insertions := insertionsOf st matching }

/-- R23 to R26: the scanner after a new cell has been appended to its window, and the candidate of the classification
event that takes place at the cell, if one does. In CLOSING the absent run stays at 2. DESIGN CHOICE (log entry 34). -/
def detect (st : Settings) (d : Direction) (sc : Scanner) (c : Cell) : Scanner × Option Candidate :=
  match sc.phase, sc.body with
  | .inBody, some b =>
    if c.lines.se then ({ sc with body := some (extendBody b c) }, none)
    else if b.absentRun < 2 then ({ sc with body := some (lengthenGap b c) }, none)
    else if (b.length : Int) < st.minBody then ({ sc with phase := .seeking, body := none }, none)
    else ({ sc with phase := .closing, body := some { b with gap := noneSeen, closing := 0 } }, none)
  | .closing, some b =>
    if c.lines.se then ({ sc with phase := .inBody, body := some (startBody c) }, some (classify st d sc b))
    else if b.closing + 1 < 16 then ({ sc with body := some { b with closing := b.closing + 1 } }, none)
    else ({ sc with phase := .seeking, body := none }, some (classify st d sc b))
  | _, _ =>
    if c.lines.se then
      if sc.guardSet then (sc, none) else ({ sc with phase := .inBody, body := some (startBody c) }, none)
    else ({ sc with guardSet := false }, none)

/-- R19, R20, R28: one new cell. -/
def takeCell (lines : ScanLines) (p : Part) (position : Int) : Part :=
  let c : Cell := { position := position, lines := lines }
  let sc := { p.scanner with window := appendCell p.scanner.window c }
  let (sc, cand) := detect p.store.working p.travel.direction sc c
  let p := { p with scanner := sc }
  match cand with
  | none => p
  | some x => recordCandidate p x

/-- R19, R21: the scanner takes an advance; an advance that leaves the scanner point at or behind the scan front
changes nothing. -/
def scannerAdvance (lines : ScanLines) (p : Part) : Part :=
  match p.scanner.active, p.scanner.front with
  | true, some front =>
    let point := scannerPoint p
    if 0 < aheadBy p.travel.direction point front then
      (cellPositions p.travel.direction front point).foldl (takeCell lines)
        { p with scanner := { p.scanner with front := some point } }
    else p
  | _, _ => p

end Sys2Proof.Machine
end

