-- ==== Sys2Proof/Machine/Store.lean ====
section
/-! DEFINITION. Requests to the settings store and the travel counter (chapters 1 and 11). Meanings: ORIGIN_SET,
SETTING_WRITE, SETTING_READ, STORE_SAVE, STORE_LOAD, ZERO_CAPTURE. -/

namespace Sys2Proof.Machine
open Sys2Proof

/-! ### ORIGIN SET (R8, R9) -/

/-- Both plan contexts are STOPPED. -/
def contextsStopped (p : Part) : Bool := decide (p.ctxH.state = .stopped) && decide (p.ctxV.state = .stopped)

/-- R8: the states that refuse ORIGIN SET with BUSY. -/
def originBusy (p : Part) : Bool :=
  decide (p.cycle.phase ≠ .idle) || !contextsStopped p || p.queue.records.any SleeperRecord.isUnreported

/-- R9: ORIGIN SET is taken: the travel counter, the queue and the scanner. -/
def setOrigin (p : Part) (origin : Int) (d : Direction) : Part :=
  let p := { p with
    travel := { p.travel with
      origin := origin, direction := d, pulses := 0, highLimit := false, lowLimit := false, originState := .set }
    queue := { p.queue with records := [], latch := none } }
  renewAndStart (testStopPoint { p with scanner := scannerReset p.scanner (scannerPoint p) })

/-- ORIGIN_SET (R8, R9). -/
def execOriginSet (s : State) : Host.Outcome State Fault Refusal :=
  takeKind 6 5 (fun r p =>
    let origin := fieldInt r.fields 0 4
    match directionOfCode (fieldNat r.fields 4 1) with
    | none => .refuse p .badField
    | some d =>
      if inChainageRange origin = false then .refuse p .badField
      else if originBusy p then .refuse p .busy
      else .ok (setOrigin p origin d)) s

/-! ### Settings (R10, R11, R181, R196) -/

/-- The part with the working record replaced. -/
def Part.withWorking (p : Part) (st : Settings) : Part := { p with store := { p.store with working := st } }

/-- R10: a change of the pitch is allowed. -/
def pitchAllowed (p : Part) : Bool :=
  decide (p.travel.originState = .none) ||
    (decide (p.travel.motion = .standstill) && decide (p.cycle.phase = .idle) && contextsStopped p)

/-- R11: a change of the scanner offset is allowed. -/
def offsetAllowed (p : Part) : Bool :=
  decide (p.travel.originState = .none) || decide (p.travel.motion = .standstill)

/-- R10: with the origin SET, the origin chainage becomes the chainage of C and P becomes 0. -/
def rebase (p : Part) : Part :=
  match p.travel.originState with
  | .none => p
  | .set => { p with travel := { p.travel with origin := chainageC p, pulses := 0 } }

/-- R11: with the origin SET, the scanner is reset, its front at the further ahead of the old front and the scanner
point. -/
def moveScanFront (p : Part) : Part :=
  match p.travel.originState with
  | .none => p
  | .set =>
    let point := scannerPoint p
    let front := match p.scanner.front with
      | none => point
      | some old => if 0 < aheadBy p.travel.direction point old then point else old
    { p with scanner := scannerReset p.scanner front }

/-- R181: a new supervisor node takes authority. -/
def passToSupervisor (p : Part) (old new : Int) : Part := if old = new then p else setAuthority p new

/-- R181: a part node that becomes equal to the authority holder passes authority to the supervisor node. -/
def passFromPart (p : Part) (old new : Int) : Part :=
  if old ≠ new ∧ p.port.authority = new then setAuthority p p.store.working.supervisorNode else p

/-- R196: a setting is written, with the effects its rule gives. -/
def writeSetting (p : Part) (id : SettingId) (v : Int) : Part :=
  let st := p.store.working
  let new := st.set id v
  match id with
  | .pitch => (rebase p).withWorking new
  | .scannerOffset => moveScanFront (p.withWorking new)
  | .positionTolerance => renewAndStart (p.withWorking new)
  | .supervisorNode => passToSupervisor (p.withWorking new) st.supervisorNode v
  | .partNode => passFromPart (p.withWorking new) st.partNode v
  | _ => p.withWorking new

/-- R196, step 4: the conditions on a write. -/
def settingBusy (p : Part) : SettingId → Bool
  | .pitch => !pitchAllowed p
  | .scannerOffset => !offsetAllowed p
  | _ => false

/-- R196, R197: the fields of a reply that carries a setting. -/
def settingFields (number : Nat) (v : Int) : List Byte := byte number :: writeInt 4 v

/-- SETTING_WRITE (R196). -/
def execSettingWrite (s : State) : Host.Outcome State Fault Refusal :=
  takeKind 8 5 (fun r p =>
    let number := fieldNat r.fields 0 1
    let v := fieldInt r.fields 1 4
    match settingOfNumber number with
    | none => .refuse p .badField
    | some id =>
      if (p.store.working.set id v).consistent = false then .refuse p .badField
      else if p.store.save.isSome then .refuse p .busy
      else if settingBusy p id then .refuse p .busy
      else .ok (writeSetting p id v) (settingFields number v)) s

/-- SETTING_READ (R197). -/
def execSettingRead (s : State) : Host.Outcome State Fault Refusal :=
  takeKind 9 1 (fun r p =>
    let number := fieldNat r.fields 0 1
    match settingOfNumber number with
    | none => .refuse p .badField
    | some id => .ok p (settingFields number (p.store.working.get id))) s

/-! ### The store (R198 to R201) -/

/-- STORE_SAVE (R198). -/
def execStoreSave (s : State) : Host.Outcome State Fault Refusal :=
  takeKind 10 0 (fun _ p =>
    if p.store.save.isSome ∨ p.cycle.phase ≠ .idle then .refuse p .busy
    else .ok { p with store := { p.store with save := some p.store.working.snapshot, status := .saving } }) s

/-- R200: the load is taken: the working record is replaced whole, and each setting that changes takes effect. The part
node of the copy applies to frames built after the event, so it is put in last (R181). -/
def adoptSettings (p : Part) (new : Settings) : Part :=
  let old := p.store.working
  let p := if new.pitch = old.pitch then p else rebase p
  let p := { p with store := { p.store with working := { new with partNode := old.partNode }, status := .loaded } }
  let p := if new.scannerOffset = old.scannerOffset then p else moveScanFront p
  let p := passFromPart (passToSupervisor p old.supervisorNode new.supervisorNode) old.partNode new.partNode
  let p := if new.positionTolerance = old.positionTolerance then p else renewAndStart p
  p.withWorking { p.store.working with partNode := new.partNode }

/-- R200, step 3: a changed pitch or scanner offset whose conditions do not hold. -/
def loadBusy (p : Part) (new : Settings) : Bool :=
  (decide (new.pitch ≠ p.store.working.pitch) && !pitchAllowed p) ||
    (decide (new.scannerOffset ≠ p.store.working.scannerOffset) && !offsetAllowed p)

/-- STORE_LOAD (R200). -/
def execStoreLoad (s : State) : Host.Outcome State Fault Refusal :=
  takeKind 11 0 (fun _ p =>
    if p.store.save.isSome ∨ p.cycle.phase ≠ .idle then .refuse p .busy
    else if copyValid p.store.copy = false then
      .refuse { p with store := { p.store with status := .fault } } .storeFault
    else
      let new := Settings.ofWords p.store.copy.words
      if loadBusy p new then .refuse p .busy else .ok (adoptSettings p new)) s

/-- ZERO_CAPTURE (R201). The new zero is carried in 4 bytes, as a setting's value is (log entry 22). -/
def execZeroCapture (s : State) : Host.Outcome State Fault Refusal :=
  takeKind 12 1 (fun r p =>
    let code := fieldNat r.fields 0 1
    match channelOfCode code with
    | none => .refuse p .badField
    | some ch =>
      if p.store.save.isSome then .refuse p .busy
      else if p.travel.motion ≠ .standstill ∨ p.cycle.phase ≠ .idle then .refuse p .badState
      else
        let zero := meanCount (p.history.get ch)
        .ok (p.withWorking (p.store.working.set (.zero ch) zero)) (settingFields code zero)) s

end Sys2Proof.Machine
end

