-- ==== Sys2Proof/Machine/Travel.lean ====
section
/-! DEFINITION. The travel counter (chapter 1): quadrature, pulses, travel steps, the chainage limits and the motion
state. Meanings: ODOMETER_PULSE, STANDSTILL_TIMER_EXPIRY. -/

namespace Sys2Proof.Machine
open Sys2Proof

/-- R1: where a pair of line levels stands in the four-state quadrature sequence in which line 1 leads line 2. -/
def quadrature (line1 line2 : Bool) : Nat :=
  match line1, line2 with
  | false, false => 0
  | true, false => 1
  | true, true => 2
  | false, true => 3

/-- R1: the pulse that a transition gives: FORWARD when line 1 leads, BACKWARD when line 2 leads, none when no line or
both lines changed. -/
def pulseOf (old1 old2 new1 new2 : Bool) : Option Move :=
  match (quadrature new1 new2 + 4 - quadrature old1 old2) % 4 with
  | 1 => some .forward
  | 3 => some .backward
  | _ => none

/-- The part with the travel counter replaced. -/
def Part.withTravel (p : Part) (t : Travel) : Part := { p with travel := t }

/-- The motion state, as the travel counter holds it and hands it on to the queue and the controller (R7, R46, R149). -/
def setMotion (p : Part) (m : Motion) : Part :=
  { p with travel := { p.travel with motion := m }
           queue := { p.queue with motion := m }
           cycle := { p.cycle with motion := m } }

/-- R7: a pulse in STANDSTILL enters MOVING, which the controller then takes (R163). -/
def enterMoving (p : Part) : Part :=
  match p.travel.motion with
  | .moving => p
  | .standstill => cycleMoving (setMotion p .moving)

/-- R6: a pulse refused at an end of the chainage range; the first one sets the end's flag and sends the event. -/
def refusePulse (p : Part) (high : Bool) : Part :=
  if (if high then p.travel.highLimit else p.travel.lowLimit) then p
  else
    let t := if high then { p.travel with highLimit := true } else { p.travel with lowLimit := true }
    handEvent (p.withTravel t) (.chainageLimit high (chainageC p))

/-- R2, R6: the pulse count changes, and the flag of the end that the chainage moves away from is cleared. -/
def stepPulses (p : Part) (pulses : Int) : Part :=
  let before := chainageC p
  let after := chainageOf p.travel p.store.working.pitch pulses
  p.withTravel { p.travel with
    pulses := pulses
    highLimit := p.travel.highLimit && !decide (after < before)
    lowLimit := p.travel.lowLimit && !decide (before < after) }

/-- R4: the blocks take a travel step: the scanner, the queue and the plan contexts. Only an advance gives cells (R21),
passes records (R44) and gives arrivals and segment ends (R75, R85); the record in position is renewed at each step
(R45). -/
def blocksTakeStep (lines : ScanLines) (dir : Move) (p : Part) : Part :=
  match dir with
  | .backward => renewAndStart p
  | .forward =>
    contextAdvance .v (contextAdvance .h (renewAndStart (passRecords (scannerAdvance lines p))))

/-- R2: the pulse count that a pulse asks for. -/
def pulsesAfter (p : Part) (dir : Move) : Int :=
  match dir with
  | .forward => p.travel.pulses + 1
  | .backward => p.travel.pulses - 1

/-- R2, R6: with the origin SET a pulse is a travel step, or is refused at an end of the chainage range. -/
def movePulse (lines : ScanLines) (dir : Move) (p : Part) : Part :=
  match p.travel.originState with
  | .none => p
  | .set =>
    let n := pulsesAfter p dir
    let x := chainageOf p.travel p.store.working.pitch n
    if inChainageRange x then blocksTakeStep lines dir (stepPulses p n)
    else refusePulse p (decide (maxChainage < x))

/-- R1, R7: a pulse sets the last movement direction, restarts the standstill timer, enters MOVING, and may change P. -/
def takePulse (lines : ScanLines) (dir : Move) (p : Part) : Part :=
  movePulse lines dir (enterMoving (p.withTravel { p.travel with
    lastMove := dir, standstillTimer := some p.store.working.standstillInterval }))

/-- R1: the odometer lines as now observed. -/
def observeOdometer (line1 line2 : Bool) (p : Part) : Part :=
  { p with lines := { p.lines with odo1 := line1, odo2 := line2 } }

/-- ODOMETER_PULSE (R1): an observation of the odometer lines; a valid transition is a pulse. -/
def execOdometerPulse (line1 line2 : Bool) (lines : ScanLines) (s : State) : Host.Outcome State Fault Refusal :=
  let p := s.part
  let q := observeOdometer line1 line2 p
  .next (s.withPart
    (if p.powered then
      match pulseOf p.lines.odo1 p.lines.odo2 line1 line2 with
      | none => q
      | some dir => takePulse lines dir q
    else q))

/-- R7: entering STANDSTILL, which is a start event (R152). -/
def enterStandstill (p : Part) : Part := startEvent (setMotion p .standstill)

/-- STANDSTILL_TIMER_EXPIRY (R7). -/
def execStandstillTimerExpiry (s : State) : Host.Outcome State Fault Refusal :=
  eventOf s fun p =>
    match p.travel.standstillTimer with
    | none => p
    | some _ =>
      let q := p.withTravel { p.travel with standstillTimer := none }
      match p.travel.motion with
      | .standstill => q
      | .moving => enterStandstill q

end Sys2Proof.Machine
end

