-- ==== Sys2Proof/Machine/Dispatch.lean ====
section
/-! DEFINITION. The meaning of every command: one arm per constructor of Instr, each a direct call. -/

namespace Sys2Proof.Machine
open Sys2Proof

/-- The effect of a command on everything but the queue of the commands that wait. -/
def exec (i : Instr) (s : State) : Host.Outcome State Fault Refusal :=
  match i with
  | .powerOn => Sys2Proof.Machine.execPowerOn s
  | .startUpSettling ch level => Sys2Proof.Machine.execStartUpSettling ch level s
  | .partReset => Sys2Proof.Machine.execPartReset s
  | .partResetTakesEffect => Sys2Proof.Machine.execPartResetTakesEffect s
  | .odometerPulse line1 line2 lines => Sys2Proof.Machine.execOdometerPulse line1 line2 lines s
  | .standstillTimerExpiry => Sys2Proof.Machine.execStandstillTimerExpiry s
  | .channelSample ch level => Sys2Proof.Machine.execChannelSample ch level s
  | .foldConfirm arm folded => Sys2Proof.Machine.execFoldConfirm arm folded s
  | .emergencyStopAsserted => Sys2Proof.Machine.execEmergencyStopAsserted s
  | .emergencyStopReleased => Sys2Proof.Machine.execEmergencyStopReleased s
  | .moveTimerExpiry axis => Sys2Proof.Machine.execMoveTimerExpiry axis s
  | .releaseTimerExpiry => Sys2Proof.Machine.execReleaseTimerExpiry s
  | .foldTimeout => Sys2Proof.Machine.execFoldTimeout s
  | .penetrationTimeout => Sys2Proof.Machine.execPenetrationTimeout s
  | .squeezeTimerExpiry => Sys2Proof.Machine.execSqueezeTimerExpiry s
  | .raiseTimeout => Sys2Proof.Machine.execRaiseTimeout s
  | .lockoutRaiseTimeout => Sys2Proof.Machine.execLockoutRaiseTimeout s
  | .endOfSave readBack => Sys2Proof.Machine.execEndOfSave readBack s
  | .frameReceived frame => Sys2Proof.Machine.execFrameReceived frame s
  | .frameTransmitted => Sys2Proof.Machine.execFrameTransmitted s
  | .busOff => Sys2Proof.Machine.execBusOff s
  | .linkRestart => Sys2Proof.Machine.execLinkRestart s
  | .halt => Sys2Proof.Machine.execHalt s
  | .stopPoint => Sys2Proof.Machine.execStopPoint s
  | .event => Sys2Proof.Machine.execEvent s
  | .sleeperDone => Sys2Proof.Machine.execSleeperDone s
  | .status => Sys2Proof.Machine.execStatus s
  | .identify => Sys2Proof.Machine.execIdentify s
  | .authGive => Sys2Proof.Machine.execAuthGive s
  | .authTake => Sys2Proof.Machine.execAuthTake s
  | .originSet => Sys2Proof.Machine.execOriginSet s
  | .settingWrite => Sys2Proof.Machine.execSettingWrite s
  | .settingRead => Sys2Proof.Machine.execSettingRead s
  | .storeSave => Sys2Proof.Machine.execStoreSave s
  | .storeLoad => Sys2Proof.Machine.execStoreLoad s
  | .zeroCapture => Sys2Proof.Machine.execZeroCapture s
  | .planWrite => Sys2Proof.Machine.execPlanWrite s
  | .planLink => Sys2Proof.Machine.execPlanLink s
  | .planClear => Sys2Proof.Machine.execPlanClear s
  | .planRead => Sys2Proof.Machine.execPlanRead s
  | .planRun => Sys2Proof.Machine.execPlanRun s
  | .planWake => Sys2Proof.Machine.execPlanWake s
  | .planStop => Sys2Proof.Machine.execPlanStop s
  | .corrGrid => Sys2Proof.Machine.execCorrGrid s
  | .corrWindow => Sys2Proof.Machine.execCorrWindow s
  | .corrData => Sys2Proof.Machine.execCorrData s
  | .corrRead => Sys2Proof.Machine.execCorrRead s
  | .trimSet => Sys2Proof.Machine.execTrimSet s
  | .trimUp => Sys2Proof.Machine.execTrimUp s
  | .trimDown => Sys2Proof.Machine.execTrimDown s
  | .patternSet => Sys2Proof.Machine.execPatternSet s
  | .patternEnable => Sys2Proof.Machine.execPatternEnable s
  | .patternRead => Sys2Proof.Machine.execPatternRead s
  | .queueRead => Sys2Proof.Machine.execQueueRead s
  | .skipMark => Sys2Proof.Machine.execSkipMark s
  | .haltClear => Sys2Proof.Machine.execHaltClear s
  | .modeSet => Sys2Proof.Machine.execModeSet s
  | .cycleStart => Sys2Proof.Machine.execCycleStart s
  | .cycleStop => Sys2Proof.Machine.execCycleStop s
  | .unitsRaise => Sys2Proof.Machine.execUnitsRaise s
  | .faultClear => Sys2Proof.Machine.execFaultClear s
  | .unknownKindRequest => Sys2Proof.Machine.execUnknownKindRequest s
  | .powerLoss left => Sys2Proof.Machine.execPowerLoss left s

end Sys2Proof.Machine
end

