-- ==== Sys2Proof/Safety.lean ====
section
/-! DEFINITION. What counts as a legal part, block by block (the laws that the manual states of its state at every moment),
and the terms in which the claims about requests and events are made. -/

namespace Sys2Proof.Safety
open Sys2Proof Sys2Proof.Machine

/-! ### Legal parts -/

/-- R176, R182, R186: at most 4 requests, at most 8 messages, and a report sequence of one byte. -/
def PortBounded (p : Part) : Prop := p.port.rx.length ≤ 4 ∧ p.port.tx.length ≤ 8 ∧ p.port.seq ≤ 255

/-- R13: every history holds at most 64 counts, each in −32768..32767. -/
def HistoriesLegal (p : Part) : Prop :=
  ∀ ch, (p.history.get ch).length ≤ 64 ∧ ∀ c ∈ p.history.get ch, -32768 ≤ c ∧ c ≤ 32767

/-- R194, R198: the working record is consistent, and during a save it equals the save's snapshot. -/
def StoreLegal (p : Part) : Prop :=
  p.store.working.consistent = true ∧ ∀ c, p.store.save = some c → c = p.store.working.snapshot

/-- R105: the trim lies within −40..+40. -/
def TrimLegal (p : Part) : Prop := -40 ≤ p.trim ∧ p.trim ≤ 40

/-- R95: a half of an entry is unset or within −2000..+2000. -/
def HalfLegal (h : Option Int) : Prop := ∀ v, h = some v → -2000 ≤ v ∧ v ≤ 2000

/-- R95, R100: the entries are 0..255 in canonical form with legal halves, the grid is in range, and an open window's cursor
lies in its range. -/
def CorrectionsLegal (p : Part) : Prop :=
  Table.wf unsetEntry p.corr.entries = true ∧
  (∀ x ∈ p.corr.entries, x.1 ≤ 255 ∧ HalfLegal x.2.lateral ∧ HalfLegal x.2.vertical) ∧
  inChainageRange p.corr.base = true ∧ 1000 ≤ p.corr.spacing ∧ p.corr.spacing ≤ 20000 ∧
  ∀ w, p.corr.window = some w → w.first ≤ w.cursor ∧ w.cursor ≤ w.last ∧ w.last ≤ 255

/-- R2, R6, R7, R46, R149: the chainage of C is in range, P is 0 while the origin state is NONE, the standstill timer runs
exactly in MOVING, and the queue and the controller hold the motion state of the travel counter. -/
def TravelLegal (p : Part) : Prop :=
  inChainageRange (chainageC p) = true ∧
  (p.travel.originState = .none → p.travel.pulses = 0) ∧
  (p.travel.motion = .moving ↔ p.travel.standstillTimer.isSome = true) ∧
  p.queue.motion = p.travel.motion ∧ p.cycle.motion = p.travel.motion

/-- R40, R41, R43, R37: at most 16 records in strictly increasing number, all below the next number (or up to it once the
numbers are exhausted), at most four of them reported, and tamp counts of at most 15, kept aside or not. -/
def QueueLegal (p : Part) : Prop :=
  p.queue.records.length ≤ 16 ∧
  p.queue.records.Pairwise (fun x y => x.number < y.number) ∧
  (∀ r ∈ p.queue.records, 1 ≤ r.number ∧ (r.number < p.queue.nextNumber ∨
    (p.queue.exhausted = true ∧ r.number = p.queue.nextNumber)) ∧ r.tampCount ≤ 15) ∧
  (p.queue.records.filter SleeperRecord.isReported).length ≤ 4 ∧
  1 ≤ p.queue.nextNumber ∧ p.queue.nextNumber ≤ 4294967295 ∧
  ∀ k, p.queue.aside = some k → k.tampCount ≤ 15

/-- R38: the cycle states in which one record is IN_CYCLE. -/
def InCyclePhase : CyclePhase → Bool
  | .positioning => true | .penetrating => true | .squeezing => true | .raising => true | .releasing => true
  | .idle => false | .lockout => false

/-- R38, R39, R149, R166: the cause set is non-empty exactly in LOCKOUT; a record is IN_CYCLE exactly when it is the current
sleeper; and there is a current sleeper, with cycle values and what was kept aside, exactly in the five cycle states. -/
def CycleLegal (p : Part) : Prop :=
  (p.cycle.causes = noCauses ↔ p.cycle.phase ≠ .lockout) ∧
  (p.phase = .starting → p.cycle.phase = .lockout) ∧
  (∀ r ∈ p.queue.records, r.state = .inCycle ↔ p.cycle.current = some r.number) ∧
  (∀ n, p.cycle.current = some n → ∃ r ∈ p.queue.records, r.number = n) ∧
  p.cycle.current.isSome = InCyclePhase p.cycle.phase ∧
  p.cycle.values.isSome = InCyclePhase p.cycle.phase ∧
  p.queue.aside.isSome = InCyclePhase p.cycle.phase ∧
  ∀ k, p.queue.aside = some k → k.state ≠ .inCycle

/-- R131, R135: an axis's demand lies within −100..+100, is not negative except on LINE, and is 0 unless the axis is
MOVING. -/
def AxisLegal (x : Axis) (a : AxisState) : Prop :=
  -100 ≤ a.demand ∧ a.demand ≤ 100 ∧ (x ≠ .line → 0 ≤ a.demand) ∧ (a.phase ≠ .moving → a.demand = 0) ∧
  (a.started = false → a = .rest)

/-- R131, R144: every axis is legal, and while the emergency stop line is asserted, or without power, every axis is at rest,
the clamp is OPEN and no release runs. -/
def DriveLegal (p : Part) : Prop :=
  (∀ x, AxisLegal x (p.drive.axes.get x)) ∧
  (p.lines.estop = true ∨ p.powered = false → (∀ x, p.drive.axes.get x = .rest) ∧ p.drive.clampEngaged = false ∧ p.drive.releaseTimer = none)

/-- R56: the completion code is present exactly in DONE, and the contents exactly outside EMPTY. -/
def SlotLegal (v : Slot) : Prop :=
  (v.code.isSome = true ↔ v.state = .done) ∧ (v.contents.isSome = true ↔ v.state ≠ .empty)

/-- R61: a context holds a slot as its current or its previous segment. -/
def Holds (c : Context) (k : Nat) : Prop := (∃ r, c.current = some r ∧ r.slot = k) ∨ (∃ r, c.previous = some r ∧ r.slot = k)

/-- R57, R58: a descriptor's length is 500..1,000,000 mm where it is a segment, and a REPEAT's count lies in 1..255. -/
def DescriptorLegal : Descriptor → Prop
  | .segmentH s => 500 ≤ s.length ∧ s.length ≤ 1000000
  | .segmentV s => 500 ≤ s.length ∧ s.length ≤ 1000000
  | .repeatRun count _ => 1 ≤ count ∧ count ≤ 255
  | _ => True

/-- R60: an absent link, or a slot 0..511. -/
def LinkWritable (l : Option Nat) : Prop := ∀ k, l = some k → k ≤ 511

/-- R57 to R59: every field of a descriptor lies within its range. -/
def DescriptorWritable : Descriptor → Prop
  | .segmentH s =>
    500 ≤ s.length ∧ s.length ≤ 1000000 ∧ -20000 ≤ s.curvatureStart ∧ s.curvatureStart ≤ 20000 ∧ -20000 ≤ s.curvatureEnd ∧
      s.curvatureEnd ≤ 20000 ∧ -2000 ≤ s.cantStart ∧ s.cantStart ≤ 2000 ∧ -2000 ≤ s.cantEnd ∧ s.cantEnd ≤ 2000 ∧
      (∀ x y, s.diverging = some (x, y) → -2000 ≤ x ∧ x ≤ 6000 ∧ -2000 ≤ y ∧ y ≤ 6000) ∧ LinkWritable s.link
  | .segmentV s =>
    500 ≤ s.length ∧ s.length ≤ 1000000 ∧ -2000 ≤ s.curvature ∧ s.curvature ≤ 2000 ∧ 0 ≤ s.baseLift ∧ s.baseLift ≤ 1500 ∧
      LinkWritable s.link
  | .branch target => target ≤ 511
  | .call target link => target ≤ 511 ∧ link ≤ 511
  | .ret => True
  | .repeatRun count link => 1 ≤ count ∧ count ≤ 255 ∧ link ≤ 511

/-- R70, R72: which parts of a context are present in each state; at most four return slots; a repeat remaining of at most
255; and every shadow copy is a segment of the own kind. -/
def ContextLegal (i : ContextId) (c : Context) : Prop :=
  (c.armed.isSome = true ↔ c.state = .armed) ∧
  (c.dead.isSome = true ↔ c.state = .dead) ∧
  (c.state = .stopped ∨ c.state = .armed → c.current = none ∧ c.previous = none) ∧
  (c.state = .running → c.current.isSome = true) ∧
  (c.state = .starved → c.current.isSome = true ∧ c.previous = c.current) ∧
  (c.state = .dead → c.previous = c.current) ∧
  c.stack.length ≤ 4 ∧ c.repeatLeft ≤ 255 ∧
  ∀ r, c.current = some r ∨ c.previous = some r → isOwnKind i r.shadow = true ∧ DescriptorLegal r.shadow

/-- R56, R61, R70, R72: plan memory is in canonical form over slots 0..511 with legal slots and descriptors, the contexts are
legal, and a slot is IN_USE exactly while a context holds it, holding a segment of that context's kind. -/
def PlanLegal (p : Part) : Prop :=
  Table.wf emptySlot p.plan = true ∧ (∀ x ∈ p.plan, x.1 ≤ 511) ∧
  (∀ k, SlotLegal (slotAt p.plan k) ∧ ∀ d, (slotAt p.plan k).contents = some d → DescriptorLegal d) ∧
  ContextLegal .h p.ctxH ∧ ContextLegal .v p.ctxV ∧
  (∀ k, (slotAt p.plan k).state = .inUse ↔ Holds p.ctxH k ∨ Holds p.ctxV k) ∧
  (∀ k, Holds p.ctxH k → ∃ d, (slotAt p.plan k).contents = some d ∧ isOwnKind .h d = true) ∧
  (∀ k, Holds p.ctxV k → ∃ d, (slotAt p.plan k).contents = some d ∧ isOwnKind .v d = true)

/-- R75, R84: no context waits at what C has reached: the end of a RUNNING context's current segment and the start of an ARMED
context lie ahead of C. -/
def ContextsAhead (p : Part) : Prop :=
  ∀ i,
    (∀ r, (p.ctx i).state = .running → (p.ctx i).current = some r →
      0 < aheadBy p.travel.direction (segmentEndOf p.travel.direction r) (chainageC p)) ∧
    (∀ first start, (p.ctx i).state = .armed → (p.ctx i).armed = some (first, start) →
      0 < aheadBy p.travel.direction start (chainageC p))

/-- Every block is legal. -/
def Legal (p : Part) : Prop :=
  PortBounded p ∧ HistoriesLegal p ∧ StoreLegal p ∧ TrimLegal p ∧ CorrectionsLegal p ∧ TravelLegal p ∧ QueueLegal p ∧
  CycleLegal p ∧ DriveLegal p ∧ PlanLegal p ∧ ContextsAhead p

/-! ### The terms of the claims about requests and events -/

/-- R1, R7, R46, R149: the part at a pulse that makes or leaves the motion MOVING, before the cycle controller and the travel step:
the lines as observed, the last movement direction, the timer restarted, and MOVING held in each of the three blocks. -/
def enteredMoving (p : Part) (line1 line2 : Bool) (dir : Move) : Part :=
  { p with
    lines := { p.lines with odo1 := line1, odo2 := line2 }
    travel := { p.travel with
      lastMove := dir, motion := .moving, standstillTimer := some p.store.working.standstillInterval }
    queue := { p.queue with motion := .moving }
    cycle := { p.cycle with motion := .moving } }

/-- R101: the correction window once a request has been taken: a request of its owner other than CORR DATA (26) and CORR
READ (27) closes it. -/
def windowKept (p : Part) (r : Request) : Option CorrWindow :=
  p.corr.window.filter fun w => !decide (w.owner = r.node ∧ r.kind ≠ 26 ∧ r.kind ≠ 27)

/-- R177: the part as a taken request finds it: the request has left the receive queue and R101 has been applied. -/
def found (p : Part) (r : Request) (rest : List Request) : Part :=
  { p with port := { p.port with rx := rest }, corr := { p.corr with window := windowKept p r } }

/-- Section 10.6: the kind of the request that a command takes, and the length its fields have where the owning rule does
not place its own length check (R177); none for a command that takes no request of a catalogued kind. -/
def takenBy : Instr → Option (Nat × Option Nat)
  | .status => some (1, some 0)
  | .identify => some (2, some 0)
  | .authGive => some (3, some 1)
  | .authTake => some (4, some 0)
  | .originSet => some (6, some 5)
  | .settingWrite => some (8, some 5)
  | .settingRead => some (9, some 1)
  | .storeSave => some (10, some 0)
  | .storeLoad => some (11, some 0)
  | .zeroCapture => some (12, some 1)
  | .partReset => some (13, some 0)
  | .planWrite => some (16, none)
  | .planLink => some (17, some 5)
  | .planClear => some (18, some 4)
  | .planRead => some (19, some 2)
  | .planRun => some (20, some 8)
  | .planWake => some (21, some 1)
  | .planStop => some (22, some 1)
  | .corrGrid => some (24, some 8)
  | .corrWindow => some (25, some 5)
  | .corrData => some (26, none)
  | .corrRead => some (27, none)
  | .trimSet => some (28, some 1)
  | .trimUp => some (29, some 0)
  | .trimDown => some (30, some 0)
  | .patternSet => some (32, none)
  | .patternEnable => some (33, some 6)
  | .patternRead => some (34, some 2)
  | .queueRead => some (36, some 5)
  | .skipMark => some (37, some 5)
  | .haltClear => some (38, some 0)
  | .modeSet => some (40, some 1)
  | .cycleStart => some (41, some 0)
  | .cycleStop => some (42, some 0)
  | .unitsRaise => some (43, some 0)
  | .faultClear => some (44, some 0)
  | _ => none

/-- Section 10.6: the data-class kinds. -/
def dataKinds : List Nat := [4, 6, 8, 10, 11, 12, 13, 16, 17, 18, 20, 21, 22, 24, 25, 32]

/-- Section 10.6: the control-class kinds. -/
def controlKinds : List Nat := [3, 28, 29, 30, 33, 37, 38, 40, 41, 42, 43, 44]

/-- Section 10.6: the read-class kinds. -/
def readKinds : List Nat := [1, 2, 9, 19, 26, 27, 34, 36]

/-- R174, R178: the reply to a request: kind + 64 and the part node; tag, status code, field length, fields. -/
def replyOf (node : Int) (r : Request) (code : Nat) (fields : List Byte) : Message where
  ident := ((r.kind + 64 : Nat) : Int) * 16 + node
  data := r.data.headD 0 :: BitVec.ofNat 8 code :: BitVec.ofNat 8 fields.length :: fields
  length := paddedLength (fields.length + 3)

/-- The state in which the part has become q and the reply to r, from the part node as it stood in s (R181), has entered
the transmit queue behind the reports that the event has admitted (log entries 8 and 29). -/
def replied (s : State) (q : Part) (r : Request) (code : Nat) (fields : List Byte) : State :=
  s.withPart { q with port := { q.port with tx := q.port.tx ++ [replyOf s.part.store.working.partNode r code fields] } }

/-- The state in which the request r has been refused with a status code, and has changed nothing (R178). -/
def refusedWith (s : State) (r : Request) (rest : List Request) (code : Nat) : State :=
  replied s (found s.part r rest) r code []

/-- R177: the request r is the oldest and can be taken. -/
abbrev CanTake (s : State) (r : Request) (rest : List Request) : Prop :=
  s.part.powered = true ∧ s.part.port.resetPending = false ∧ s.part.port.tx.length < 8 ∧ s.part.port.rx = r :: rest

/-- R177: the request r is the oldest, can be taken, and is handed to its owning block if its sender is within its class:
the part is READY and the frame is long enough. -/
abbrev Takes (s : State) (r : Request) (rest : List Request) : Prop :=
  CanTake s r rest ∧ s.part.phase = .ready ∧ 2 ≤ r.data.length ∧ r.fieldLength + 2 ≤ r.data.length

/-- R177, R179: the request r of a read-class kind is decided by its block. -/
abbrev AsksRead (s : State) (r : Request) (rest : List Request) (kind : Nat) : Prop := Takes s r rest ∧ r.kind = kind

/-- R177, R179: the request r of a data-class kind is decided by its block: it comes from the supervisor node. -/
abbrev AsksData (s : State) (r : Request) (rest : List Request) (kind : Nat) : Prop :=
  Takes s r rest ∧ r.kind = kind ∧ r.node = s.part.store.working.supervisorNode

/-- R177, R179: the request r of a control-class kind is decided by its block: it comes from the authority holder. -/
abbrev AsksControl (s : State) (r : Request) (rest : List Request) (kind : Nat) : Prop :=
  Takes s r rest ∧ r.kind = kind ∧ r.node = s.part.port.authority

/-- The scanner and the candidates that a run of new cells gives, each cell taken by the body detection (R23 to R26). -/
def scanRun (st : Settings) (d : Direction) (sc : Scanner) (cells : List Cell) : Scanner × List Candidate :=
  cells.foldl (fun acc c => ((detect st d acc.1 c).1, acc.2 ++ (detect st d acc.1 c).2.toList)) (sc, [])

/-- The state in which a record that has passed C stands (R44). -/
def passedState (p : Part) (r : SleeperRecord) : RecordState :=
  if r.state = .pending ∧ p.store.working.passMargin < aheadBy p.travel.direction (chainageC p) r.candidate.centre then
    if r.candidate.skip.isSome then .skipped else .passed
  else r.state

/-- The conditions of a cycle start on the record r (R151). -/
def MayStart (p : Part) (r : SleeperRecord) : Prop :=
  p.cycle.phase = .idle ∧ p.travel.originState = .set ∧ p.cycle.motion = .standstill ∧ p.lines.estop = false ∧
  recordInPosition p = some r ∧ (∀ h, p.queue.latch = some h → r.number < h) ∧ r.candidate.skip ≠ some .allFolded ∧
  r.state ≠ .inCycle

/-- R158, R159: t is q after the last LOWERED unit's squeeze has ended: the insertion is counted and the cycle goes to RAISING,
which raises every unit below the clear height; with every unit clear the raise ends at once, and the cycle goes on to the next
insertion, or to RELEASING after the last one or with a stop requested. -/
def GoesToRaising (q t : Part) : Prop :=
  let counted : Cycle := { q.cycle with
    phase := .raising, insertionsDone := q.cycle.insertionsDone + 1, squeeze := ⟨false, false, false, false⟩ }
  ((∃ w, 200 < unitDepth q w) →
    ∃ vertical : PerUnit Vertical, (∀ w, vertical.get w = if unitDepth q w ≤ 200 then .rest else .raise) ∧
      t = { q with cycle := { counted with phaseTimer := some .raise, vertical := vertical } }) ∧
  ((∀ w, unitDepth q w ≤ 200) → ∀ v, q.cycle.values = some v →
    let r : Part := { q with cycle := { counted with phaseTimer := none, vertical := ⟨.rest, .rest, .rest, .rest⟩ } }
    t = if q.cycle.stopRequested = .none ∧ q.cycle.insertionsDone + 1 < v.insertions then enterPenetrating r
        else enterReleasing r)

end Sys2Proof.Safety
end

