-- ==== Sys2Proof/Certificates/Slice0/Obligations.lean ====
section
/-! DEFINITION. The statements for the provers, in the order of the manual's blocks. A request is described by what its sender
asks (`AsksRead`, `AsksData`, `AsksControl`), the part it finds (`found`) and the state in which it has been answered
(`replied`, `refusedWith`), with the reports that the request hands on ahead of its reply (log entries 8 and 29). -/

open Sys2Proof Sys2Proof.Machine Sys2Proof.Safety

/-! ### The machine -/

/-- One step carries out the command at the front of the queue, with the rest of the queue waiting; with no command waiting
the part idles (log entry 1). -/
def Obligations.StepRunsTheFrontCommand : Prop :=
  ∀ (s : State) (c : Instr) (rest : List Instr),
    step { s with pending := c :: rest } = exec c { s with pending := rest } ∧
    step { s with pending := [] } = .next { s with pending := [] }

/-- Every command answers a next state, and leaves the commands that wait as they are: no command faults or is refused. That a
command whose event cannot take place answers one too is the model's choice (log entry 1). -/
def Obligations.EveryCommandAnswersANextState : Prop :=
  ∀ (c : Instr) (s : State), ∃ p, exec c s = .next { part := p, pending := s.pending }

/-- R199, R203: without power the lines are seen to change and nothing else happens until the next power-on (log entry 1). A
power-on gives every block its values after power-on and loads a valid copy into the working record (LOADED), or else the
factory defaults (DEFAULTED), leaving the copy as it is. A loss of power leaves the copy as it was, or, during a save,
whatever had been written (log entry 5). -/
def Obligations.PowerComesAndGoes : Prop :=
  (∀ (c : Instr) (s : State), s.part.powered = false → c ≠ .powerOn →
    ∃ lines, exec c s = .next { s with part := { s.part with lines := lines } } ∧
      match c with
      | .odometerPulse l1 l2 _ => lines = { s.part.lines with odo1 := l1, odo2 := l2 }
      | .foldConfirm arm folded => lines = { s.part.lines with folds := s.part.lines.folds.set arm folded }
      | .emergencyStopAsserted => lines = { s.part.lines with estop := true }
      | .emergencyStopReleased => lines = { s.part.lines with estop := false }
      | _ => lines = s.part.lines) ∧
  (∀ (s : State),
    (s.part.powered = false → copyValid s.part.store.copy = true →
      exec .powerOn s = .next (s.withPart (Part.afterReset
        { working := Settings.ofWords s.part.store.copy.words, copy := s.part.store.copy, save := none, status := .loaded }
        s.part.lines))) ∧
    (s.part.powered = false → copyValid s.part.store.copy = false →
      exec .powerOn s = .next (s.withPart (Part.afterReset
        { working := Settings.factory, copy := s.part.store.copy, save := none, status := .defaulted } s.part.lines))) ∧
    (s.part.powered = true → ∀ left, ∃ t, exec (.powerLoss left) s = .next t ∧ t.pending = s.pending ∧
      t.part.powered = false ∧ t.part.lines = s.part.lines ∧
      t.part.store.copy = if s.part.store.save = none then s.part.store.copy else left))

/-! ### Power, reset and start-up -/

/-- R12, R18, R22, R30, R55, R56, R71, R95, R105, R131, R149, R171, R190, R203: the values of every block after power-on and after
PART RESET, with every output at rest. That nothing is kept aside and no record is in position is the model's reading (log
entry 10). -/
def Obligations.BlocksHoldTheirValuesAfterReset : Prop :=
  ∀ (store : Store) (lines : Lines),
    let p := Part.afterReset store lines
    p.powered = true ∧ p.phase = .starting ∧ p.store = store ∧ p.lines = lines ∧
    p.travel = { pulses := 0, origin := 0, direction := .ascending, originState := .none, motion := .standstill,
                 lastMove := .forward, standstillTimer := none, highLimit := false, lowLimit := false } ∧
    (∀ ch, p.history.get ch = []) ∧
    p.scanner.active = false ∧ p.scanner.window = [] ∧ p.scanner.front = none ∧ p.scanner.phase = .seeking ∧
    p.scanner.guardSet = true ∧ p.scanner.body = none ∧
    (∀ pt ∈ p.scanner.patterns.toList, pt.enabled = false ∧ pt.anchor = 0 ∧ pt.action = .mark ∧
      pt.cells = [⟨⟨false, false, false, false⟩, ⟨false, false, false, false⟩⟩] ∧ ArmSet.isEmpty pt.foldSet = true ∧
      pt.insertions = 0) ∧
    p.queue = { records := [], nextNumber := 1, exhausted := false, latch := none, lastStop := .none, motion := .standstill,
                aside := none, inPosition := none } ∧
    (∀ k, slotAt p.plan k = { state := .empty, code := none, contents := none }) ∧
    (∀ i, p.ctx i = { state := .stopped, dead := none, armed := none, current := none, previous := none, repeatLeft := 0,
                      stack := [] }) ∧
    (∀ k, entryAt p.corr.entries k = { lateral := none, vertical := none }) ∧ p.corr.base = 0 ∧ p.corr.spacing = 5000 ∧
    p.corr.window = none ∧ p.trim = 0 ∧
    (∀ x, p.drive.axes.get x = { phase := .idle, started := false, startReading := none, target := none, gain := none,
                                 tolerance := none, timer := .stopped, demand := 0 }) ∧
    p.drive.clampEngaged = false ∧ p.drive.releaseTimer = none ∧
    p.cycle.phase = .lockout ∧ p.cycle.causes = { travelFault := false, estop := false, unitStuck := false, resetDown := true } ∧
    p.cycle.mode = .manual ∧ p.cycle.current = none ∧ p.cycle.values = none ∧ p.cycle.insertionsDone = 0 ∧
    p.cycle.penetrationBegun = false ∧ p.cycle.stopRequested = .none ∧ p.cycle.folding = .notBegun ∧
    (∀ u, p.cycle.units.get u = { role := .undecided, atDepth := false, squeezeEnded := false, clear := false,
                                  depthReached := 0, flags := ⟨false, false, false, false⟩ }) ∧
    p.cycle.phaseTimer = none ∧ p.cycle.lockoutRaise = false ∧ p.cycle.motion = .standstill ∧
    (∀ u, p.cycle.vertical.get u = .rest ∧ p.cycle.squeeze.get u = false) ∧ (∀ x, p.cycle.fold.get x = false) ∧
    p.port = { link := .on, rx := [], tx := [], authority := store.working.supervisorNode, halt := none, stop := none,
               events := ⟨none, none, none, none, none, none⟩, seq := 0, overrun := false, resetPending := false }

/-- R204: a PART RESET is refused with BUSY during a save; otherwise it is taken, and it takes effect when its reply has been
sent, or at the link restart before that. Until then the port takes no request and admits no report: their commands leave the
state as it is (log entry 1). -/
def Obligations.PartResetTakesEffectWhenItsReplyIsSent : Prop :=
  (∀ s r rest, AsksData s r rest 13 → r.fieldLength = 0 →
    (s.part.store.save ≠ none → exec .partReset s = .next (refusedWith s r rest 2)) ∧
    (s.part.store.save = none →
      exec .partReset s = .next (replied s
        { found s.part r rest with port := { (found s.part r rest).port with resetPending := true } } r 0 []))) ∧
  (∀ s, s.part.powered = true → s.part.port.resetPending = true →
    let q := Part.afterReset s.part.store s.part.lines
    (s.part.port.link = .on → (∃ m, s.part.port.tx = [m]) →
      exec .frameTransmitted s = .next (s.withPart q) ∧ exec .partResetTakesEffect s = .next (s.withPart q)) ∧
    (s.part.port.link = .busOff →
      exec .linkRestart s = .next (s.withPart q) ∧ exec .partResetTakesEffect s = .next (s.withPart q)) ∧
    (∀ c, takenBy c ≠ none ∨ c ∈ [Instr.unknownKindRequest, .halt, .stopPoint, .event, .sleeperDone] →
      exec c s = .next s))

/-- R171, R203: at the sample at which every depth channel holds 8 counts, the cycle's initial state is settled, EVENT
STARTED and, for LOCKOUT, an EVENT LOCKOUT are handed on together, and the part becomes READY. START_UP_SETTLING is that
sample and nothing else (log entries 9 and 18). -/
def Obligations.TheEighthDepthSampleSettlesTheStart : Prop :=
  ∀ (s : State) (ch : Channel) (level : Int), s.part.powered = true → s.part.phase = .starting →
    ((∀ u, 8 ≤ ((recordSample s.part ch level).history.get (depthChannel u)).length) →
      let q := cycleSample ch (driveSample ch (recordSample s.part ch level))
      let clear := decide (unitDepth q .lo ≤ 200 ∧ unitDepth q .li ≤ 200 ∧ unitDepth q .ri ≤ 200 ∧ unitDepth q .ro ≤ 200)
      let c : Cycle := { q.cycle with
        phase := if clear && !s.part.lines.estop then .idle else .lockout
        causes := { travelFault := false, estop := s.part.lines.estop, unitStuck := false, resetDown := !clear } }
      let started := holdEvent { q with cycle := c, phase := .ready } (.started s.part.store.status c.phase c.causes)
      let t := s.withPart (afterHandOn
        (if c.phase = .lockout then
          holdEvent started (.lockout c.causes (if s.part.lines.estop then .estop else .resetDown) none)
        else started))
      exec (.startUpSettling ch level) s = .next t ∧ exec (.channelSample ch level) s = .next t) ∧
    ((∃ u, ((recordSample s.part ch level).history.get (depthChannel u)).length < 8) →
      exec (.startUpSettling ch level) s = .next s)

/-! ### The message port -/

/-- R174, R176, R182, R187: a base data frame of kind 1..47 from another node is a request; it joins the receive queue, or with
four held it is discarded and OVERRUN is set; any other frame, and any frame in BUS_OFF, changes nothing. A frame sent leaves
the transmit queue, oldest first; in BUS_OFF none is sent; the link restart empties both queues, returns authority to the
supervisor node and closes an open correction window, and keeps everything else. A link restart while the link is ON and a
frame sent from an empty queue cannot take place, and leave the state as it is (log entry 1). -/
def Obligations.FramesAreReceivedAndSent : Prop :=
  (∀ (s : State) (f : BusFrame), s.part.powered = true →
    let isRequest : Prop := f.extended = false ∧ f.remote = false ∧ 16 ≤ f.ident ∧ f.ident < 768 ∧
      ((f.ident % 16 : Nat) : Int) ≠ s.part.store.working.partNode
    let r : Request := { kind := f.ident / 16, node := ((f.ident % 16 : Nat) : Int), data := f.data }
    (s.part.port.link = .on → isRequest → s.part.port.rx.length < 4 →
      exec (.frameReceived f) s =
        .next (s.withPart { s.part with port := { s.part.port with rx := s.part.port.rx ++ [r] } })) ∧
    (s.part.port.link = .on → isRequest → 4 ≤ s.part.port.rx.length →
      exec (.frameReceived f) s = .next (s.withPart { s.part with port := { s.part.port with overrun := true } })) ∧
    (s.part.port.link = .busOff ∨ ¬ isRequest → exec (.frameReceived f) s = .next s)) ∧
  (∀ (s : State), s.part.powered = true →
    (∀ m rest, s.part.port.link = .on → s.part.port.tx = m :: rest → (s.part.port.resetPending = false ∨ rest ≠ []) →
      exec .frameTransmitted s = .next (s.withPart { s.part with port := { s.part.port with tx := rest } })) ∧
    (s.part.port.link = .busOff ∨ s.part.port.tx = [] → exec .frameTransmitted s = .next s) ∧
    (exec .busOff s = .next (s.withPart { s.part with port := { s.part.port with link := .busOff } })) ∧
    (s.part.port.link = .busOff → s.part.port.resetPending = false →
      exec .linkRestart s = .next (s.withPart { s.part with
        port := { s.part.port with link := .on, rx := [], tx := [], authority := s.part.store.working.supervisorNode }
        corr := { s.part.corr with window := none } })) ∧
    (s.part.port.link = .on → exec .linkRestart s = .next s))

/-- R177, R178, R179, R101: the order in which the port decides a request it takes, up to the owning block, for every kind of
the catalogue and for a kind that is missing from it. A refusal closes the owner's correction window and changes nothing else. A
frame without data is answered with tag 0 at step 1 as at step 2 (log entry 30). A request of another kind than a command takes,
or one that cannot be taken, leaves the state as it is (log entry 1). A STATUS that is refused keeps OVERRUN as well (log entry
26). -/
def Obligations.RequestsAreDecidedInOrder : Prop :=
  (∀ c kind flen s r rest, takenBy c = some (kind, flen) → CanTake s r rest → r.kind = kind →
    (s.part.phase = .starting → exec c s = .next (refusedWith s r rest 2)) ∧
    (s.part.phase = .ready → r.data.length < 2 ∨ r.data.length < r.fieldLength + 2 →
      exec c s = .next (refusedWith s r rest 5)) ∧
    (Takes s r rest → kind ∈ dataKinds → r.node ≠ s.part.store.working.supervisorNode →
      exec c s = .next (refusedWith s r rest 7)) ∧
    (Takes s r rest → kind ∈ controlKinds → r.node ≠ s.part.port.authority →
      exec c s = .next (refusedWith s r rest 7)) ∧
    (Takes s r rest → (kind ∈ dataKinds → r.node = s.part.store.working.supervisorNode) →
      (kind ∈ controlKinds → r.node = s.part.port.authority) → (∃ n, flen = some n ∧ n ≠ r.fieldLength) →
      exec c s = .next (refusedWith s r rest 5))) ∧
  (∀ s r rest, CanTake s r rest → r.kind ∉ dataKinds → r.kind ∉ controlKinds → r.kind ∉ readKinds →
    (s.part.phase = .starting → exec .unknownKindRequest s = .next (refusedWith s r rest 2)) ∧
    (s.part.phase = .ready → r.data.length < 2 ∨ r.data.length < r.fieldLength + 2 →
      exec .unknownKindRequest s = .next (refusedWith s r rest 5)) ∧
    (Takes s r rest → exec .unknownKindRequest s = .next (refusedWith s r rest 6))) ∧
  (∀ c kind flen s, takenBy c = some (kind, flen) →
    (8 ≤ s.part.port.tx.length ∨ s.part.port.rx = [] ∨ ∃ r rest, s.part.port.rx = r :: rest ∧ r.kind ≠ kind) →
    exec c s = .next s)

/-- R188 to R190, R180, R181: the port's own requests. The part code in 2 bytes and the silicon revision in 1 are the model's
sizes (log entry 22). -/
def Obligations.ThePortAnswersItsOwnRequests : Prop :=
  (∀ s r rest, AsksRead s r rest 1 → r.fieldLength = 0 →
    let p := s.part
    exec .status s = .next (replied s
      { found p r rest with port := { (found p r rest).port with overrun := false } } r 0
      ([byte p.travel.originState.code, byte p.travel.direction.code] ++ writeInt 4 (chainageC p) ++
        [byte p.travel.motion.code, byte p.travel.lastMove.code, byte p.cycle.phase.code, byte p.cycle.causes.bits,
         byte p.cycle.mode.code] ++
        (match p.cycle.current with
         | none => [0, 0, 0, 0, 0]
         | some n => 1 :: writeInt 4 n) ++
        [byte p.ctxH.state.code, byte (deadCode (p.ctxH.dead.map (·.1))),
         byte p.ctxV.state.code, byte (deadCode (p.ctxV.dead.map (·.1))), byte p.queue.records.length] ++
        writeInt 4 (p.queue.latch.getD 0 : Nat) ++ writeInt 1 p.trim ++ writeInt 1 p.port.authority ++
        [byte p.store.status.code, if p.port.overrun then 1 else 0]))) ∧
  (∀ s r rest, AsksRead s r rest 2 → r.fieldLength = 0 →
    exec .identify s = .next (replied s (found s.part r rest) r 0
      (writeInt 2 2460 ++ [byte Config.siliconRevision] ++ writeInt 1 s.part.store.working.partNode ++
        writeInt 1 s.part.store.working.supervisorNode))) ∧
  (∀ s r rest, AsksControl s r rest 3 → r.fieldLength = 1 →
    let node : Int := fieldNat r.fields 0 1
    (15 < node ∨ node = s.part.store.working.partNode → exec .authGive s = .next (refusedWith s r rest 4)) ∧
    (node ≤ 15 → node ≠ s.part.store.working.partNode →
      exec .authGive s = .next (replied s
        { found s.part r rest with port := { (found s.part r rest).port with authority := node } } r 0
        (writeInt 1 node)))) ∧
  (∀ s r rest, AsksData s r rest 4 → r.fieldLength = 0 →
    let node := s.part.store.working.supervisorNode
    exec .authTake s = .next (replied s
      { found s.part r rest with port := { (found s.part r rest).port with authority := node } } r 0 (writeInt 1 node)))

/-- R183 to R186: a report handed on while two places are free and none waits is admitted in that event (log entry 11), a STOP
POINT with its fields in the order of R184 (log entry 21); with fewer than two places free it is held, replacing the pending
one, and an EVENT raises its merged count. With two places or more free and other reports waiting, it joins them, and HALT, STOP
POINT and the EVENT kinds in the arbiter's order are admitted one after the other, those that waited before it among them, until
fewer than two places are free or none of them waits (log entries 11 and 29). -/
def Obligations.ReportsHandedOnAreAdmittedOrHeld : Prop :=
  ∀ (p : Part),
    let port := p.port
    let message := fun (kind : Nat) (fields : List Byte) =>
      ({ ident := kind * 16 + p.store.working.partNode, data := byte port.seq :: byte fields.length :: fields,
         length := paddedLength (fields.length + 2) } : Message)
    (port.tx.length ≤ 6 → port.resetPending = false → port.halt = none → port.stop = none →
      (∀ k, port.events.get k = none) →
      (∀ h, handHalt p h = { p with port := { port with
        tx := port.tx ++ [message 114 (writeInt 4 h.sleeper ++ writeInt 4 h.centre)], seq := (port.seq + 1) % 256 } }) ∧
      (∀ r, handStop p r = { p with port := { port with
        tx := port.tx ++ [message 112 (stopFields r)], seq := (port.seq + 1) % 256 } }) ∧
      (∀ e, handEvent p e = { p with port := { port with
        tx := port.tx ++ [message 115 ([byte e.kind.code, 1] ++ eventDetails e)], seq := (port.seq + 1) % 256 } })) ∧
    (7 ≤ port.tx.length ∨ port.resetPending = true →
      (∀ h, handHalt p h = { p with port := { port with halt := some h } }) ∧
      (∀ r, handStop p r = { p with port := { port with stop := some r } }) ∧
      (∀ e merged, (port.events.get e.kind = none → merged = 1) →
        (∀ old, port.events.get e.kind = some old → merged = min 255 (old.merged + 1)) →
        handEvent p e = { p with port := { port with
          events := port.events.put e.kind (some { event := e, merged := merged }) } })) ∧
    (∀ h, handHalt p h = afterHandOn { p with port := { port with halt := some h } }) ∧
    (∀ r, handStop p r = afterHandOn { p with port := { port with stop := some r } }) ∧
    (∀ e merged, (port.events.get e.kind = none → merged = 1) →
      (∀ old, port.events.get e.kind = some old → merged = min 255 (old.merged + 1)) →
      handEvent p e = afterHandOn { p with port := { port with
        events := port.events.put e.kind (some { event := e, merged := merged }) } }) ∧
    (let admitted := fun (m : Message) => { port with tx := port.tx ++ [m], seq := (port.seq + 1) % 256 }
     (7 ≤ port.tx.length ∨ port.resetPending = true → afterHandOn p = p) ∧
     (port.halt = none → port.stop = none → (∀ k, port.events.get k = none) → afterHandOn p = p) ∧
     (port.tx.length ≤ 6 → port.resetPending = false →
      (∀ h, port.halt = some h → afterHandOn p = afterHandOn { p with port :=
        { admitted (message 114 (writeInt 4 h.sleeper ++ writeInt 4 h.centre)) with halt := none } }) ∧
      (∀ r, port.halt = none → port.stop = some r → afterHandOn p = afterHandOn { p with port :=
        { admitted (message 112 (stopFields r)) with stop := none } }) ∧
      (∀ before k after e, port.halt = none → port.stop = none →
        [EventKind.started, .lockout, .planState, .chainageLimit, .scanOverflow, .storeDone] = before ++ k :: after →
        (∀ j ∈ before, port.events.get j = none) → port.events.get k = some e →
        afterHandOn p = afterHandOn { p with port :=
          { admitted (message 115 ([byte e.event.kind.code, byte e.merged] ++ eventDetails e.event)) with
            events := port.events.put k none } })))

/-- R183, R54: the arbiter's order. While two places are free, the first waiting of HALT, STOP POINT, the EVENT kinds in their
order and SLEEPER DONE is admitted, with the report sequence; a command for any other leaves the state as it is (log entry 1).
A SLEEPER DONE is admitted by its own command (log entry 11), and an IN_POSITION that its removal of a record brings about acts
at the end of that event (log entry 26). A STOP POINT carries the centre, present or absent, that it was handed on with (log
entry 31), and its fields in the order of R184 (log entry 21). R185, R192: the bytes of a sleeper record, those of an absent
part all 0, and of each EVENT's details. -/
def Obligations.ReportsAreAdmittedInTheArbitersOrder : Prop :=
  (∀ (s : State), s.part.powered = true →
    let port := s.part.port
    let message := fun (kind : Nat) (fields : List Byte) =>
      ({ ident := kind * 16 + s.part.store.working.partNode, data := byte port.seq :: byte fields.length :: fields,
         length := paddedLength (fields.length + 2) } : Message)
    let admitted := fun (m : Message) => { port with tx := port.tx ++ [m], seq := (port.seq + 1) % 256 }
    (port.tx.length ≤ 6 → port.resetPending = false →
      (∀ h, port.halt = some h →
        exec .halt s = .next (s.withPart { s.part with port :=
          { admitted (message 114 (writeInt 4 h.sleeper ++ writeInt 4 h.centre)) with halt := none } }) ∧
        exec .stopPoint s = .next s ∧ exec .event s = .next s ∧ exec .sleeperDone s = .next s) ∧
      (∀ r, port.halt = none → port.stop = some r →
        exec .stopPoint s = .next (s.withPart { s.part with port :=
          { admitted (message 112 (stopFields r)) with stop := none } }) ∧
        exec .halt s = .next s ∧ exec .event s = .next s ∧ exec .sleeperDone s = .next s) ∧
      (∀ before k after e, port.halt = none → port.stop = none →
        [EventKind.started, .lockout, .planState, .chainageLimit, .scanOverflow, .storeDone] = before ++ k :: after →
        (∀ j ∈ before, port.events.get j = none) → port.events.get k = some e →
        exec .event s = .next (s.withPart { s.part with port :=
          { admitted (message 115 ([byte e.event.kind.code, byte e.merged] ++ eventDetails e.event)) with
            events := port.events.put k none } }) ∧
        exec .halt s = .next s ∧ exec .stopPoint s = .next s ∧ exec .sleeperDone s = .next s) ∧
      (port.halt = none → port.stop = none → (∀ k, port.events.get k = none) →
        ∀ before r after, s.part.queue.records = before ++ r :: after →
          (∀ x ∈ before, SleeperRecord.isUnreported x = false) → SleeperRecord.isUnreported r = true →
          exec .sleeperDone s = .next (s.withPart (renewAndStart { s.part with
            port := admitted (message 113 (recordFields r))
            queue := { s.part.queue with records := trimHistory (s.part.queue.records.map fun x =>
              if x.number = r.number then { x with reported := true } else x) } })) ∧
          exec .halt s = .next s ∧ exec .stopPoint s = .next s ∧ exec .event s = .next s)) ∧
    (7 ≤ port.tx.length ∨ port.resetPending = true →
      exec .halt s = .next s ∧ exec .stopPoint s = .next s ∧ exec .event s = .next s ∧ exec .sleeperDone s = .next s)) ∧
  (∀ x : SleeperRecord,
    let c := x.candidate
    let b : Bool → Nat := fun flag => if flag then 1 else 0
    (recordFields x).length = 59 ∧
    recordFields x = writeInt 4 x.number ++ writeInt 4 c.centre ++
      [byte c.length, byte c.sleeperClass.code,
       byte (b c.seen.fl + 2 * b c.seen.fr + 4 * b c.seen.cm + 8 * b c.unfastened + 16 * b c.skip.isSome + 32 * b c.halt),
       byte (skipCode c.skip), byte (SlotSet.bits c.matched), byte (ArmSet.bits c.foldSet), byte c.insertions,
       byte x.state.code, byte (failureCode x.failure), byte x.tampCount,
       byte (b x.targets.isSome + 2 * b (x.targets.bind (·.aux)).isSome + 4 * b x.result.isSome +
         8 * b (x.result.bind (·.residuals.aux)).isSome)] ++
      (match x.targets with
       | none => List.replicate 11 0
       | some t => writeInt 2 t.shift ++ writeInt 2 t.liftL ++ writeInt 2 t.liftR ++ writeInt 2 (t.aux.getD 0) ++
           writeInt 3 t.flags.bits) ++
      (match x.result with
       | none => List.replicate 29 0
       | some r => writeInt 3 (r.residuals.line.getD 0) ++ writeInt 3 (r.residuals.liftL.getD 0) ++
           writeInt 3 (r.residuals.liftR.getD 0) ++ writeInt 3 (r.residuals.aux.getD 0) ++
           writeInt 3 r.depths.lo ++ writeInt 3 r.depths.li ++ writeInt 3 r.depths.ri ++ writeInt 3 r.depths.ro ++
           [byte r.insertionsDone, byte r.unitFlags.lo.bits, byte r.unitFlags.li.bits, byte r.unitFlags.ri.bits,
            byte r.unitFlags.ro.bits])) ∧
  (let optional := fun (n : Nat) (v : Option Int) => match v with
     | none => (0 : Byte) :: List.replicate n 0
     | some x => 1 :: writeInt n x
   (∀ r : StopReport, stopFields r = match r.stop with
     | .none => [0]
     | .tamp n => 1 :: writeInt 4 n ++ optional 4 r.centre
     | .halt n => 2 :: writeInt 4 n ++ optional 4 r.centre) ∧
   (∀ e : Event, eventDetails e = match e with
     | .started status phase causes => [byte status.code, byte phase.code, byte causes.bits]
     | .planState ctx state dead slot =>
       [byte ctx.code, byte state.code, byte (deadCode dead)] ++ optional 2 (slot.map fun k => (k : Int))
     | .scanOverflow centre => writeInt 4 centre
     | .chainageLimit high chainage => (if high then 1 else 0) :: writeInt 4 chainage
     | .lockout causes added sleeper =>
       [byte causes.bits, byte added.bits] ++ optional 4 (sleeper.map fun n => (n : Int))
     | .storeDone ok => [if ok then 0 else 11]))

/-! ### Arithmetic, travel and chord inputs -/

/-- 00_scope.md, Conventions, and R175: every division rounds to the nearest integer, half away from zero; and a field of n
bytes that is written reads back, when its value fits n bytes in two's complement. R175, R178, R186, R191 to R193: the code
values, and the bits of the flag sets; a code that is not listed is none of its field's values. -/
def Obligations.DivisionRoundsAndFieldsReadBack : Prop :=
  (∀ (n d : Int), d ≠ 0 →
    2 * (n - roundDiv n d * d).natAbs ≤ d.natAbs ∧
    (2 * (n - roundDiv n d * d).natAbs = d.natAbs → n.natAbs < (roundDiv n d * d).natAbs)) ∧
  (∀ (n : Nat) (x : Int), 1 ≤ n → -(2 ^ (8 * n - 1)) ≤ x → x < 2 ^ (8 * n - 1) →
    readInt (writeInt n x) = x ∧ (writeInt n x).length = n ∧ (0 ≤ x → (readNat (writeInt n x) : Int) = x)) ∧
  ([Status.ok, .clamped, .busy, .badState, .badField, .badLength, .unknownKind, .notAuthorised, .notOwner, .noWindow, .slotBusy,
      .storeFault].map Status.code = List.range 12 ∧
    [SleeperClass.standard, .wide, .longBody].map SleeperClass.code = List.range 3 ∧
    [none, some SkipCause.pattern, some .longBody, some .allFolded, some .manual].map skipCode = List.range 5 ∧
    [RecordState.pending, .inCycle, .tamped, .skipped, .passed, .failed].map RecordState.code = List.range 6 ∧
    [none, some FailureCause.stopped, some .travelFault, some .estop, some .unitStuck].map failureCode = List.range 5 ∧
    [OriginState.none, .set].map OriginState.code = List.range 2 ∧
    [Motion.standstill, .moving].map Motion.code = List.range 2 ∧
    [Move.forward, .backward].map Move.code = List.range 2 ∧
    [ContextState.stopped, .armed, .running, .starved, .dead].map ContextState.code = List.range 5 ∧
    [none, some DeadCode.emptySlot, some .wrongKind, some .stackOver, some .stackUnder, some .flowLoop].map deadCode =
      List.range 6 ∧
    [SlotState.empty, .loaded, .inUse, .done].map SlotState.code = List.range 4 ∧
    [none, some CompletionCode.traversed, some .cut, some .executed, some .repeatCancelled].map completionCode = List.range 5 ∧
    [CyclePhase.idle, .positioning, .penetrating, .squeezing, .raising, .releasing, .lockout].map CyclePhase.code =
      List.range 7 ∧
    [StoreStatus.loaded, .defaulted, .saving, .saved, .fault].map StoreStatus.code = List.range 5 ∧
    [EventKind.started, .planState, .scanOverflow, .chainageLimit, .lockout, .storeDone].map EventKind.code =
      [1, 2, 3, 4, 5, 6] ∧
    [Cause.travelFault, .estop, .unitStuck, .resetDown].map Cause.bits = [1, 2, 4, 8]) ∧
  (∀ n : Nat, (∀ d, directionOfCode n = some d ↔ n = d.code) ∧ (∀ c, contextOfCode n = some c ↔ n = c.code) ∧
    (∀ m, modeOfCode n = some m ↔ n = m.code) ∧ (∀ a, actionOfCode n = some a ↔ n = a.code) ∧
    (∀ r, railOfCode n = some r ↔ n = r.code) ∧
    (windowModeOfCode n = some .write ↔ n = 0) ∧ (windowModeOfCode n = some .edit ↔ n = 1)) ∧
  ([Direction.ascending, .descending].map Direction.code = List.range 2 ∧
    [ContextId.h, .v].map ContextId.code = List.range 2 ∧ [Mode.manual, .auto].map Mode.code = List.range 2 ∧
    [PatternAction.mark, .fold, .skip, .halt].map PatternAction.code = List.range 4 ∧
    [ReferenceRail.left, .right, .low].map ReferenceRail.code = List.range 3) ∧
  (let b : Bool → Nat := fun flag => if flag then 1 else 0
   (∀ f : TargetFlags, f.bits = b f.noPlanH + 2 * b f.noPlanV + 4 * b f.heldH + 8 * b f.heldV + 16 * b f.uncorrectedH +
     32 * b f.uncorrectedV + 64 * b f.stepLimit + 128 * b f.lineLimit + 256 * b f.lnFault + 512 * b f.refSwapped +
     1024 * b f.levelFault + 2048 * b f.xlFault + 4096 * b f.lowSpotL + 8192 * b f.lowSpotR + 16384 * b f.liftLimitL +
     32768 * b f.liftLimitR + 65536 * b f.lowSpotAux + 131072 * b f.liftLimitAux) ∧
   (∀ f : UnitFlags, f.bits = b f.folded + 2 * b f.foldFault + 4 * b f.penShort + 8 * b f.squeezeTimed) ∧
   (∀ x : ArmSet, ArmSet.bits x = b x.loF + 2 * b x.loA + 4 * b x.liF + 8 * b x.liA + 16 * b x.riF + 32 * b x.riA + 64 * b x.roF +
     128 * b x.roA) ∧
   (∀ x : SlotSet, SlotSet.bits x = b x.s1 + 2 * b x.s2 + 4 * b x.s3 + 8 * b x.s4 + 16 * b x.s5 + 32 * b x.s6) ∧
   (∀ x : ScanLines, ScanLines.bits x = b x.se + 2 * b x.fl + 4 * b x.fr + 8 * b x.cm) ∧
   (∀ c : CauseSet, c.bits = b c.travelFault + 2 * b c.estop + 4 * b c.unitStuck + 8 * b c.resetDown))

/-- R3, R5: the chainage of C and of the forward points, and that every travel step moves C by 1 to 5 mm. -/
def Obligations.TravelStepsMoveOneToFiveMillimetres : Prop :=
  (∀ (t : Travel) (pitch n : Int), 1000 ≤ pitch → pitch ≤ 5000 →
    let x := chainageOf t pitch n
    let y := chainageOf t pitch (n + 1)
    1 ≤ aheadBy t.direction y x ∧ aheadBy t.direction y x ≤ 5 ∧
    chainageOf t pitch 0 = t.origin ∧ chainageOf t pitch (-n) - t.origin = -(x - t.origin)) ∧
  (∀ p : Part, (p.travel.originState = .none → chainageC p = 0) ∧
    (p.travel.originState = .set →
      chainageC p = p.travel.origin + (match p.travel.direction with | .ascending => 1 | .descending => -1) *
        roundDiv (p.travel.pulses * p.store.working.pitch) 1000) ∧
    aheadBy p.travel.direction (pointA p) (chainageC p) = p.store.working.a ∧
    aheadBy p.travel.direction (pointAv p) (chainageC p) = p.store.working.av ∧
    aheadBy p.travel.direction (scannerPoint p) (chainageC p) = p.store.working.scannerOffset)

/-- R1, R2, R6, R7: what an observation of the odometer lines does to the travel counter, in every state: which transitions
are pulses, and what a pulse makes of P, the limit flags, the motion state, the timer and the last movement direction. The
line that leads in the sequence is the model's reading (log entry 16). -/
def Obligations.OdometerPulsesMoveTheCounter : Prop :=
  (∀ a b c d : Bool, pulseOf a b c d =
    if (a != c) = (b != d) then none else if (a != c) = (c != d) then some .forward else some .backward) ∧
  (∀ (s : State) (l1 l2 : Bool) (lines : ScanLines), s.part.powered = true →
    let p := s.part
    let seen : Lines := { p.lines with odo1 := l1, odo2 := l2 }
    (pulseOf p.lines.odo1 p.lines.odo2 l1 l2 = none →
      exec (.odometerPulse l1 l2 lines) s = .next (s.withPart { p with lines := seen })) ∧
    (∀ dir, pulseOf p.lines.odo1 p.lines.odo2 l1 l2 = some dir →
      let n := match dir with | .forward => p.travel.pulses + 1 | .backward => p.travel.pulses - 1
      let x := chainageOf p.travel p.store.working.pitch n
      let moved : Travel := { p.travel with
        lastMove := dir, motion := .moving, standstillTimer := some p.store.working.standstillInterval }
      ∃ t, exec (.odometerPulse l1 l2 lines) s = .next t ∧ t.pending = s.pending ∧ t.part.lines = seen ∧
        t.part.powered = true ∧ t.part.phase = p.phase ∧ t.part.history = p.history ∧ t.part.corr = p.corr ∧
        t.part.trim = p.trim ∧ t.part.store = p.store ∧
        (p.travel.originState = .none → t.part.travel = moved) ∧
        (p.travel.originState = .set → -99999999 ≤ x → x ≤ 99999999 →
          t.part.travel = { moved with
            pulses := n
            highLimit := p.travel.highLimit && !decide (x < chainageC p)
            lowLimit := p.travel.lowLimit && !decide (chainageC p < x) }) ∧
        (p.travel.originState = .set → 99999999 < x → t.part.travel = { moved with highLimit := true }) ∧
        (p.travel.originState = .set → x < -99999999 → t.part.travel = { moved with lowLimit := true })))

/-- R2, R4, R6, R7, R21, R44, R45, R75, R85: the whole of a pulse that does not stop a cycle: in MOVING, in IDLE, or with every
unit clear in RELEASING or LOCKOUT (R163). Without an origin only the motion changes; a retreat renews the record in position
and changes no other block; an advance is taken by the scanner, the queue and the plan contexts (in the order of log entry 12);
and the first refused pulse at an end sends CHAINAGE_LIMIT. What a pulse does once the motion is MOVING (`movePulse`) is said of
every part, so that it holds after a stopped cycle too. -/
def Obligations.TheBlocksTakeATravelStep : Prop :=
  (∀ (p : Part) (lines : ScanLines) (dir : Move), p.queue.motion = .moving →
    let n := match dir with | .forward => p.travel.pulses + 1 | .backward => p.travel.pulses - 1
    let x := chainageOf p.travel p.store.working.pitch n
    let stepped : Part := { p with travel := { p.travel with
      pulses := n
      highLimit := p.travel.highLimit && !decide (x < chainageC p)
      lowLimit := p.travel.lowLimit && !decide (chainageC p < x) } }
    (p.travel.originState = .none → movePulse lines dir p = p) ∧
    (p.travel.originState = .set → -99999999 ≤ x → x ≤ 99999999 →
      (dir = .backward → movePulse lines dir p =
        { stepped with queue := { p.queue with inPosition := (recordInPosition stepped).map (·.number) } }) ∧
      (dir = .forward → movePulse lines dir p =
        contextAdvance .v (contextAdvance .h (renewInPosition (passRecords (scannerAdvance lines stepped))).1))) ∧
    (p.travel.originState = .set → 99999999 < x → movePulse lines dir p =
      if p.travel.highLimit then p
      else handEvent { p with travel := { p.travel with highLimit := true } } (.chainageLimit true (chainageC p))) ∧
    (p.travel.originState = .set → x < -99999999 → movePulse lines dir p =
      if p.travel.lowLimit then p
      else handEvent { p with travel := { p.travel with lowLimit := true } } (.chainageLimit false (chainageC p)))) ∧
  (∀ (s : State) (l1 l2 : Bool) (lines : ScanLines) (dir : Move), s.part.powered = true → TravelLegal s.part →
    pulseOf s.part.lines.odo1 s.part.lines.odo2 l1 l2 = some dir →
    (s.part.travel.motion = .moving ∨ s.part.cycle.phase = .idle ∨
      ((s.part.cycle.phase = .releasing ∨ s.part.cycle.phase = .lockout) ∧ ∀ u, unitDepth s.part u ≤ 200)) →
    exec (.odometerPulse l1 l2 lines) s = .next (s.withPart (movePulse lines dir (enteredMoving s.part l1 l2 dir))))

/-- R7, R39, R46, R141, R149, R152, R162 to R164, R166, R167, R170: a pulse at STANDSTILL stops the running cycle. In
POSITIONING the cycle is abandoned: RELEASE is given, the values are dropped and no stop is requested (log entry 13), and the
record is put back as it was kept aside, with the stop point tested and the record in position renewed (log entry 13). In
PENETRATING, SQUEEZING, RAISING and RELEASING with a unit below the clear height it is a travel fault: every squeeze OFF, the
lockout raise begun, RELEASE given, the record in cycle FAILED with TRAVEL_FAULT, and EVENT LOCKOUT handed on with the causes as
they then stand, TRAVEL_FAULT as the cause added and the number of the record. The controller acts before the travel step
(`movePulse`, log entry 12). With every unit clear a cycle in PENETRATING or SQUEEZING goes to RAISING, whose raise ends at
once, and one in RAISING goes on to its end, both with TRAVEL_FAULT requested. In LOCKOUT with a unit below the clear height
TRAVEL_FAULT is added, with its EVENT when it is new, and the lockout raise starts unless it runs or the line is asserted. At
the expiry of the standstill timer the motion state becomes STANDSTILL everywhere it is held, which is a start event: nothing
more in MANUAL mode, and what `startEvent` does in AUTO mode; an expiry without a running timer changes nothing (log entry 1).
Entering RAISING marks no unit clear (log entry 32). -/
def Obligations.MotionChangesReachTheCycle : Prop :=
  (∀ (s : State) (l1 l2 : Bool) (lines : ScanLines) (dir : Move) (n : Nat), s.part.powered = true →
    s.part.travel.motion = .standstill → s.part.travel.originState = .none ∨ dir = .backward ∨ QueueLegal s.part →
    CycleLegal s.part →
    pulseOf s.part.lines.odo1 s.part.lines.odo2 l1 l2 = some dir → s.part.cycle.current = some n →
    ∃ t, exec (.odometerPulse l1 l2 lines) s = .next t ∧ t.part.cycle.motion = .moving ∧
      (s.part.cycle.phase = .positioning →
        t.part.cycle.phase = .idle ∧ t.part.cycle.current = none ∧ t.part.cycle.values = none ∧
        t.part.queue.aside = none ∧ (∀ x, t.part.cycle.fold.get x = false) ∧ t.part.cycle.causes = s.part.cycle.causes ∧
        t.part.drive = (releaseDrive s.part).drive ∧
        (∀ k, s.part.queue.aside = some k → ∀ r ∈ t.part.queue.records, r.number = n →
          r.tampCount = k.tampCount ∧ r.failure = k.failure ∧
          (s.part.travel.originState = .none ∨ dir = .backward → r.state = k.state ∧ r.reported = k.reported)) ∧
        t.part.drive.clampEngaged = (s.part.drive.clampEngaged &&
          !(s.part.drive.anyStarted && s.part.drive.releaseTimer.isNone))) ∧
      (s.part.cycle.phase ∈ [CyclePhase.penetrating, .squeezing, .raising, .releasing] →
        (∃ u, 200 < unitDepth s.part u) →
        t.part.cycle.phase = .lockout ∧ t.part.cycle.causes = { s.part.cycle.causes with travelFault := true } ∧
        t.part.cycle.current = none ∧ t.part.queue.aside = none ∧ t.part.drive = (releaseDrive s.part).drive ∧
        (∀ u, t.part.cycle.squeeze.get u = false) ∧ t.part.cycle.lockoutRaise = true ∧
        (∀ u, t.part.cycle.vertical.get u = if unitDepth s.part u ≤ 200 then .rest else .raise) ∧
        (∀ r ∈ t.part.queue.records, r.number = n →
          r.state = .failed ∧ r.failure = some .travelFault ∧ r.reported = false)) ∧
      (s.part.cycle.phase ∈ [CyclePhase.penetrating, .squeezing] → (∀ u, unitDepth s.part u ≤ 200) →
        t.part.cycle = { s.part.cycle with
          motion := .moving, stopRequested := .travelFault, phase := .releasing, phaseTimer := none
          squeeze := ⟨false, false, false, false⟩, vertical := ⟨.rest, .rest, .rest, .rest⟩
          fold := ⟨false, false, false, false, false, false, false, false⟩ } ∧
        t.part.drive = (releaseDrive s.part).drive) ∧
      (s.part.cycle.phase = .raising → (∀ u, unitDepth s.part u ≤ 200) →
        t.part.cycle = { s.part.cycle with motion := .moving, stopRequested := .travelFault } ∧
        t.part.drive = s.part.drive)) ∧
  (∀ (s : State) (l1 l2 : Bool) (lines : ScanLines) (dir : Move) (n : Nat), s.part.powered = true →
    s.part.travel.motion = .standstill → pulseOf s.part.lines.odo1 s.part.lines.odo2 l1 l2 = some dir →
    s.part.cycle.current = some n →
    let p := enteredMoving s.part l1 l2 dir
    (∀ k, p.cycle.phase = .positioning → p.queue.aside = some k →
      let stopped := { p.cycle with
        phaseTimer := none, fold := ⟨false, false, false, false, false, false, false, false⟩ }
      let restored := testStopPoint { releaseDrive { p with cycle := stopped } with queue := { p.queue with
        aside := none
        records := trimHistory (p.queue.records.map fun x => if x.number = n then
          { x with state := k.state, tampCount := k.tampCount, reported := k.reported, failure := k.failure } else x) } }
      exec (.odometerPulse l1 l2 lines) s = .next (s.withPart (movePulse lines dir { restored with
        queue := { restored.queue with inPosition := (recordInPosition restored).map (·.number) }
        cycle := { stopped with phase := .idle, current := none, values := none, stopRequested := .none } }))) ∧
    (∀ (u : TampUnit) (vertical : PerUnit Vertical),
      p.cycle.phase ∈ [CyclePhase.penetrating, .squeezing, .raising, .releasing] → 200 < unitDepth p u →
      (∀ w, vertical.get w = if unitDepth p w ≤ 200 then .rest else .raise) →
      let raising := { p.cycle with
        squeeze := ⟨false, false, false, false⟩, phaseTimer := some .raise, lockoutRaise := true, vertical := vertical }
      let failed := testStopPoint { releaseDrive { p with cycle := raising } with queue := { p.queue with
        aside := none
        records := p.queue.records.map fun x => if x.number = n then
          { x with state := .failed, failure := some .travelFault, reported := false } else x } }
      let causes : CauseSet := { p.cycle.causes with travelFault := true }
      exec (.odometerPulse l1 l2 lines) s = .next (s.withPart (movePulse lines dir (handEvent { failed with
          cycle := { raising with
            phase := .lockout, causes := causes, current := none, values := none, stopRequested := .none } }
        (.lockout causes .travelFault (some n))))))) ∧
  (∀ (s : State) (l1 l2 : Bool) (lines : ScanLines) (dir : Move) (u : TampUnit) (vertical : PerUnit Vertical),
    s.part.powered = true → s.part.travel.motion = .standstill → s.part.cycle.phase = .lockout →
    pulseOf s.part.lines.odo1 s.part.lines.odo2 l1 l2 = some dir → 200 < unitDepth s.part u →
    (∀ w, vertical.get w = if unitDepth s.part w ≤ 200 then .rest else .raise) →
    let p := s.part
    let starts : Prop := p.cycle.lockoutRaise = false ∧ p.lines.estop = false
    let causes : CauseSet := { p.cycle.causes with travelFault := true }
    let c : Cycle := { p.cycle with motion := .moving, causes := causes }
    let c' : Cycle := { c with lockoutRaise := true, phaseTimer := some .raise, vertical := vertical }
    ∃ t, exec (.odometerPulse l1 l2 lines) s = .next t ∧ (starts → t.part.cycle = c') ∧ (¬ starts → t.part.cycle = c) ∧
      t.part.drive = p.drive ∧
      (p.travel.originState = .none →
        let moved : Part := { enteredMoving p l1 l2 dir with cycle := c }
        let told := if p.cycle.causes.travelFault then moved else handEvent moved (.lockout causes .travelFault none)
        t = s.withPart { told with cycle := t.part.cycle })) ∧
  (∀ (s : State), s.part.powered = true →
    let p := s.part
    let q : Part := { p with
      travel := { p.travel with motion := .standstill, standstillTimer := none }
      queue := { p.queue with motion := .standstill }
      cycle := { p.cycle with motion := .standstill } }
    (p.travel.standstillTimer ≠ none → p.travel.motion = .moving → p.cycle.mode = .manual →
      exec .standstillTimerExpiry s = .next (s.withPart q)) ∧
    (p.travel.standstillTimer ≠ none → p.travel.motion = .moving → p.cycle.mode = .auto →
      exec .standstillTimerExpiry s = .next (s.withPart (startEvent q))) ∧
    (p.travel.standstillTimer = none → exec .standstillTimerExpiry s = .next s))

/-- R8, R9: ORIGIN SET. With every record removed the stop point is "none", and it is handed on if the last one handed on was
anything else. The reports that the request hands on stand ahead of its reply (log entries 8 and 29). -/
def Obligations.OriginSetPlacesTheFrame : Prop :=
  ∀ s r rest, AsksData s r rest 6 → r.fieldLength = 5 →
    let p := s.part
    let origin := fieldInt r.fields 0 4
    let code := fieldNat r.fields 4 1
    let busy : Prop := p.cycle.phase ≠ .idle ∨ p.ctxH.state ≠ .stopped ∨ p.ctxV.state ≠ .stopped ∨
      ∃ x ∈ p.queue.records, x.state ∈ [RecordState.tamped, .skipped, .passed, .failed] ∧ x.reported = false
    (1 < code ∨ origin < -99999999 ∨ 99999999 < origin → exec .originSet s = .next (refusedWith s r rest 4)) ∧
    (code ≤ 1 → -99999999 ≤ origin → origin ≤ 99999999 → busy → exec .originSet s = .next (refusedWith s r rest 2)) ∧
    (code ≤ 1 → -99999999 ≤ origin → origin ≤ 99999999 → ¬ busy →
      let d : Direction := if code = 0 then .ascending else .descending
      let front := origin + (if code = 0 then 1 else -1) * p.store.working.scannerOffset
      let q : Part := { found p r rest with
        travel := { p.travel with
          origin := origin, direction := d, pulses := 0, highLimit := false, lowLimit := false, originState := .set }
        queue := { p.queue with records := [], latch := none, lastStop := .none, inPosition := none }
        scanner := { p.scanner with
          active := true, window := [], phase := .seeking, guardSet := true, body := none, front := some front } }
      exec .originSet s = .next (replied s
        (if p.queue.lastStop = .none then q else handStop q { stop := .none, centre := none }) r 0 []))

/-- R13 to R17, R203: a sample, in READY and in STARTING before the one that settles the start, joins its channel's history,
clamped to the converter's range, and the history keeps the 64 newest counts; with no axis that closes on the channel taking
updates, and in IDLE, POSITIONING or RELEASING, for a channel of no depth and no pressure, or in LOCKOUT with no lockout raise
and every demand and fold output at rest (as in STARTING), it does nothing more. The readings over a history in the converter's
range: the two roundings, the drive value over the 8 newest, 0 for an empty history, and the saturation flag. -/
def Obligations.SamplesGiveCalibratedMeans : Prop :=
  (∀ (s : State) (ch : Channel) (level : Int), s.part.powered = true →
    s.part.phase = .ready ∨ (∃ u, ((recordSample s.part ch level).history.get (depthChannel u)).length < 8) →
    let p := s.part
    let h := p.history.get ch ++ [max (-32768) (min 32767 level)]
    let atRest : Prop := p.cycle.phase = .lockout ∧ p.cycle.lockoutRaise = false ∧ (∀ u, p.cycle.vertical.get u = .rest) ∧
      ∀ x, p.cycle.fold.get x = false
    ∃ t, exec (.channelSample ch level) s = .next t ∧
      t.part.history = p.history.set ch (h.drop (h.length - 64)) ∧
      (∀ c, c ≠ ch → t.part.history.get c = p.history.get c) ∧
      t.part.phase = p.phase ∧
      t.part.travel = p.travel ∧ t.part.scanner = p.scanner ∧ t.part.plan = p.plan ∧ t.part.store = p.store ∧
      ((∀ x, axisOfChannel ch = some x → (p.drive.axes.get x).phase ≠ .moving ∧ (p.drive.axes.get x).phase ≠ .settled) →
        p.cycle.phase ∈ [CyclePhase.idle, .positioning, .releasing] ∨ ch ∈ [Channel.ln, .lvl, .lvr, .xl, .axs] ∨ atRest →
        t = s.withPart { p with history := p.history.set ch (h.drop (h.length - 64)) })) ∧
  (∀ (p : Part) (ch : Channel),
    let h := p.history.get ch
    let recent := h.drop (h.length - 8)
    let zero := p.store.working.zero.get ch
    let k := p.store.working.sensitivity.get ch
    (h = [] → measurementMean p ch = 0 ∧ driveValue p ch = 0 ∧ saturated p ch = true) ∧
    (h ≠ [] → measurementMean p ch = roundDiv ((roundDiv h.sum h.length - zero) * k) 1024 ∧
      driveValue p ch = roundDiv ((roundDiv recent.sum recent.length - zero) * k) 1024 ∧
      (saturated p ch = true ↔ -32768 ∈ h ∨ 32767 ∈ h)) ∧
    (HistoriesLegal p → -32768 ≤ zero → zero ≤ 32767 → -8192 ≤ k → k ≤ 8192 →
      (measurementMean p ch).natAbs ≤ 524280 ∧ (driveValue p ch).natAbs ≤ 524280))

/-! ### The sleeper scanner -/

/-- R19 to R22, R28: an advance of the scan front gives one cell for each multiple of 10 mm beyond the old front and not beyond
the new one, nearest first, and at most one for at most 5 mm; an advance that ends at or behind the scan front, or of an
inactive scanner, changes nothing in the part; an advance beyond it moves the front to the scanner point, and the window then
ends with the new cells, at most 64. Each cell in turn is appended to the window and handed to the body detection (`detect`),
and the candidate of a classification event at the cell goes to the queue (`recordCandidate`); nothing else happens. -/
def Obligations.OnlyNewGroundGivesCells : Prop :=
  (∀ (d : Direction) (old new : Int),
    (∀ x, x ∈ cellPositions d old new ↔ (10 ∣ x ∧ 0 < aheadBy d x old ∧ 0 ≤ aheadBy d new x)) ∧
    (cellPositions d old new).Pairwise (fun x y => 0 < aheadBy d y x) ∧
    (aheadBy d new old ≤ 5 → (cellPositions d old new).length ≤ 1)) ∧
  (∀ (p : Part) (lines : ScanLines),
    (p.scanner.active = false ∨ p.scanner.front = none ∨
      (∃ f, p.scanner.front = some f ∧ aheadBy p.travel.direction (scannerPoint p) f ≤ 0) →
      scannerAdvance lines p = p) ∧
    (∀ f, p.scanner.active = true → p.scanner.front = some f → 0 < aheadBy p.travel.direction (scannerPoint p) f →
      let cells := (cellPositions p.travel.direction f (scannerPoint p)).map fun x => ({ position := x, lines := lines } : Cell)
      let window := p.scanner.window ++ cells
      (scannerAdvance lines p).scanner.front = some (scannerPoint p) ∧
      (p.scanner.window.length ≤ 64 → (scannerAdvance lines p).scanner.window = window.drop (window.length - 64)) ∧
      (scannerAdvance lines p).scanner.patterns = p.scanner.patterns ∧
      (scannerAdvance lines p).travel = p.travel ∧ (scannerAdvance lines p).drive = p.drive ∧
      (scannerAdvance lines p).cycle = p.cycle ∧
      (let take := fun (q : Part) (x : Int) =>
        let c : Cell := { position := x, lines := lines }
        let window := q.scanner.window ++ [c]
        let found := detect q.store.working q.travel.direction
          { q.scanner with window := window.drop (window.length - 64) } c
        match found.2 with
        | none => { q with scanner := found.1 }
        | some candidate => recordCandidate { q with scanner := found.1 } candidate
       scannerAdvance lines p = (cellPositions p.travel.direction f (scannerPoint p)).foldl take
         { p with scanner := { p.scanner with front := some (scannerPoint p) } })))

/-- R23 to R27: what the body detection does with each cell in SEEKING with the entry guard set and clear, in IN_BODY and in
CLOSING: a gap of one or two cells counts as body once an SE-present cell follows it, the length saturates at 255, the third
absent cell discards a body below the minimum length or leads to CLOSING (where the absent run stays as it is, log entry 34),
and the 16th absent cell, or an SE-present one that starts the next body, brings the classification event; and the candidate's
centre, length, seen flags, UNFASTENED and class. From SEEKING with the entry guard clear, SE present in n cells 10 mm apart and
then absent in 19 gives one candidate, at the last cell (the 3 absent cells that end the body and the 16 that close it) and at
none before it, when n is at least the minimum body length: its centre is midway, its length n and its flags those of the n
cells. A shorter body gives none. -/
def Obligations.ABodyIsClassifiedOnce : Prop :=
  (∀ (st : Settings) (d : Direction) (sc : Scanner) (c : Cell),
    let clear : Seen := ⟨false, false, false⟩
    let started : Body := { first := c.position, last := c.position, length := 1, seen := ⟨c.lines.fl, c.lines.fr, c.lines.cm⟩
                            absentRun := 0, gap := clear, closing := 0 }
    (sc.phase = .seeking →
      (c.lines.se = false → detect st d sc c = ({ sc with guardSet := false }, none)) ∧
      (c.lines.se = true → sc.guardSet = true → detect st d sc c = (sc, none)) ∧
      (c.lines.se = true → sc.guardSet = false →
        detect st d sc c = ({ sc with phase := .inBody, body := some started }, none))) ∧
    (∀ b, sc.phase = .inBody → sc.body = some b →
      (c.lines.se = true → detect st d sc c = ({ sc with body := some { b with
        last := c.position, length := min 255 ((c.position - b.first).natAbs / 10 + 1), absentRun := 0, gap := clear
        seen := ⟨b.seen.fl || b.gap.fl || c.lines.fl, b.seen.fr || b.gap.fr || c.lines.fr,
                 b.seen.cm || b.gap.cm || c.lines.cm⟩ } }, none)) ∧
      (c.lines.se = false → b.absentRun ≤ 1 → detect st d sc c = ({ sc with body := some { b with
        absentRun := b.absentRun + 1
        gap := ⟨b.gap.fl || c.lines.fl, b.gap.fr || c.lines.fr, b.gap.cm || c.lines.cm⟩ } }, none)) ∧
      (c.lines.se = false → b.absentRun = 2 → (b.length : Int) < st.minBody →
        detect st d sc c = ({ sc with phase := .seeking, body := none }, none)) ∧
      (c.lines.se = false → b.absentRun = 2 → st.minBody ≤ (b.length : Int) →
        detect st d sc c = ({ sc with phase := .closing, body := some { b with gap := clear, closing := 0 } }, none))) ∧
    (∀ b, sc.phase = .closing → sc.body = some b →
      (c.lines.se = false → b.closing ≤ 14 →
        detect st d sc c = ({ sc with body := some { b with closing := b.closing + 1 } }, none)) ∧
      (c.lines.se = false → b.closing = 15 →
        detect st d sc c = ({ sc with phase := .seeking, body := none }, some (classify st d sc b))) ∧
      (c.lines.se = true →
        detect st d sc c = ({ sc with phase := .inBody, body := some started }, some (classify st d sc b))))) ∧
  (∀ (st : Settings) (d : Direction) (sc : Scanner) (b : Body),
    let c := classify st d sc b
    (10 ∣ b.first → 10 ∣ b.last → 2 * c.centre = b.first + b.last) ∧ c.length = b.length ∧ c.seen = b.seen ∧
    (c.unfastened = true ↔ b.seen.fl = false ∨ b.seen.fr = false) ∧
    (c.sleeperClass = .longBody ↔ st.longLimit ≤ (b.length : Int)) ∧
    (c.sleeperClass = .wide ↔ st.wideLimit ≤ (b.length : Int) ∧ (b.length : Int) < st.longLimit)) ∧
  (∀ (st : Settings) (d : Direction) (sc : Scanner) (first : Int) (body gap : List ScanLines),
    sc.phase = .seeking → sc.guardSet = false → sc.body = none →
    (∀ l ∈ body, l.se = true) → (∀ l ∈ gap, l.se = false) → 1 ≤ body.length → body.length ≤ 255 → gap.length = 19 →
    let sign : Int := match d with | .ascending => 1 | .descending => -1
    let cells := (body ++ gap).mapIdx fun i l => ({ position := first + sign * 10 * i, lines := l } : Cell)
    let run := scanRun st d sc cells
    run.1 = sc ∧ (scanRun st d sc cells.dropLast).2 = [] ∧
    ((body.length : Int) < st.minBody → run.2 = []) ∧
    (st.minBody ≤ (body.length : Int) → ∃ c, run.2 = [c] ∧
      c.centre = first + sign * 5 * (body.length - 1) ∧ c.length = body.length ∧
      c.seen = ⟨body.any (·.fl), body.any (·.fr), body.any (·.cm)⟩ ∧
      (c.unfastened = true ↔ (∀ l ∈ body, l.fl = false) ∨ (∀ l ∈ body, l.fr = false)) ∧
      (c.sleeperClass = .longBody ↔ st.longLimit ≤ (body.length : Int)) ∧
      (c.sleeperClass = .standard ↔ (body.length : Int) < st.longLimit ∧ (body.length : Int) < st.wideLimit)))

/-- R31, R32: an enabled pattern matches when each of its cells agrees, on the lines of its mask, with the window cell that
stands anchor + k cells ahead of the first body cell, a position that is not in the window failing; and how the matches of
one classification event are combined into the candidate. -/
def Obligations.PatternsMatchAndCombine : Prop :=
  (∀ (d : Direction) (window : List Cell) (first : Int) (pt : Pattern),
    patternMatches d window first pt = true ↔
      pt.enabled = true ∧ ∀ (k : Nat) (pc : PatternCell), pt.cells[k]? = some pc →
        ∃ w, window.find? (fun w => w.position == first + (match d with | .ascending => 1 | .descending => -1) * 10 *
            (pt.anchor + k)) = some w ∧
          (pc.mask.se = true → w.lines.se = pc.value.se) ∧ (pc.mask.fl = true → w.lines.fl = pc.value.fl) ∧
          (pc.mask.fr = true → w.lines.fr = pc.value.fr) ∧ (pc.mask.cm = true → w.lines.cm = pc.value.cm)) ∧
  (∀ (st : Settings) (d : Direction) (sc : Scanner) (b : Body),
    let c := classify st d sc b
    let hit := patternMatches d sc.window b.first
    let slots := sc.patterns.toList
    c.matched.toList = slots.map hit ∧
    (∀ x, c.foldSet.get x = true ↔ ∃ pt ∈ slots, hit pt = true ∧ pt.action = .fold ∧ pt.foldSet.get x = true) ∧
    (c.halt = true ↔ ∃ pt ∈ slots, hit pt = true ∧ pt.action = .halt) ∧
    (∀ before pt after, slots = before ++ pt :: after → hit pt = true → pt.insertions ≠ 0 →
      (∀ x ∈ before, hit x = true → x.insertions = 0) → c.insertions = pt.insertions) ∧
    ((∀ pt ∈ slots, hit pt = true → pt.insertions = 0) → c.insertions = st.defaultInsertions.toNat) ∧
    (c.skip = some .allFolded ↔ ∀ x, c.foldSet.get x = true) ∧
    (c.skip = some .pattern ↔ (∃ x, c.foldSet.get x = false) ∧ ∃ pt ∈ slots, hit pt = true ∧ pt.action = .skip) ∧
    (c.skip = some .longBody ↔ (∃ x, c.foldSet.get x = false) ∧ (∀ pt ∈ slots, hit pt = true → pt.action ≠ .skip) ∧
      st.longLimit ≤ (b.length : Int) ∧ st.longBodyAction = 0) ∧
    c.skip ≠ some .manual)

/-- R33, R34, R35, R175: PATTERN SET stores a pattern whose fields are good and refuses any other (the bytes are the slot in 2,
log entry 25, the enable, the length, the anchor, the action, the fold set, the override and the cells); PATTERN ENABLE
switches the enables and leaves the rest of each slot; PATTERN READ returns a slot as stored. -/
def Obligations.PatternsAreSetSwitchedAndRead : Prop :=
  (∀ s r rest, AsksData s r rest 32 →
    let fs := r.fields
    let slot := fieldNat fs 0 2
    let enable := fieldNat fs 2 1
    let n := fieldNat fs 3 1
    let anchor := fieldInt fs 4 1
    let action := fieldNat fs 5 1
    let folds := fieldNat fs 6 1
    let insertions := fieldNat fs 7 1
    let fieldsGood : Prop := 1 ≤ slot ∧ slot ≤ 6 ∧ enable ≤ 1 ∧ 1 ≤ n ∧ n ≤ 48 ∧ -16 ≤ anchor ∧ anchor ≤ 16 ∧ action ≤ 3 ∧
      insertions ≤ 4 ∧ (action = 1 ↔ folds ≠ 0)
    (r.fieldLength < 8 → exec .patternSet s = .next (refusedWith s r rest 5)) ∧
    (8 ≤ r.fieldLength → ¬ fieldsGood → exec .patternSet s = .next (refusedWith s r rest 4)) ∧
    (8 ≤ r.fieldLength → fieldsGood → r.fieldLength ≠ 8 + n → exec .patternSet s = .next (refusedWith s r rest 5)) ∧
    (fieldsGood → r.fieldLength = 8 + n → ∃ pt : Pattern,
      exec .patternSet s = .next (replied s { found s.part r rest with
        scanner := { s.part.scanner with patterns := s.part.scanner.patterns.set slot pt } } r 0 []) ∧
      (pt.enabled = true ↔ enable = 1) ∧ pt.anchor = anchor ∧ pt.action.code = action ∧ pt.insertions = insertions ∧
      ArmSet.bits pt.foldSet = folds ∧ pt.cells.length = n ∧
      ∀ (k : Nat) (b : Byte) (pc : PatternCell), (fs.drop 8)[k]? = some b → pt.cells[k]? = some pc →
        ScanLines.bits pc.mask = b.toNat / 16 ∧ ScanLines.bits pc.value = (b.toNat % 16) &&& (b.toNat / 16))) ∧
  ((∀ s r rest, AsksControl s r rest 33 → r.fieldLength = 6 →
    let code := fun i => fieldNat r.fields i 1
    let sw := fun (c : Nat) (pt : Pattern) =>
      { pt with enabled := if c = 0 then false else if c = 1 then true else pt.enabled }
    let t := s.part.scanner.patterns
    ((∃ i, i < 6 ∧ 2 < code i) → exec .patternEnable s = .next (refusedWith s r rest 4)) ∧
    ((∀ i, i < 6 → code i ≤ 2) → exec .patternEnable s = .next (replied s { found s.part r rest with
      scanner := { s.part.scanner with patterns :=
        ⟨sw (code 0) t.s1, sw (code 1) t.s2, sw (code 2) t.s3, sw (code 3) t.s4, sw (code 4) t.s5, sw (code 5) t.s6⟩ } }
      r 0 []))) ∧
  (∀ s r rest, AsksRead s r rest 34 → r.fieldLength = 2 →
    let slot := fieldNat r.fields 0 2
    (slot < 1 ∨ 6 < slot → exec .patternRead s = .next (refusedWith s r rest 4)) ∧
    (∀ pt, s.part.scanner.patterns.toList[slot - 1]? = some pt → 1 ≤ slot →
      exec .patternRead s = .next (replied s (found s.part r rest) r 0
        ([if pt.enabled then 1 else 0, byte pt.cells.length] ++ writeInt 1 pt.anchor ++
          [byte pt.action.code, byte (ArmSet.bits pt.foldSet), byte pt.insertions] ++
          pt.cells.map fun c => byte (ScanLines.bits c.value + 16 * ScanLines.bits c.mask))))))

/-! ### The sleeper queue -/

/-- R41, R42, R37, R44, R46: a candidate is lost with an EVENT SCAN_OVERFLOW when the numbers are exhausted or 16 records are
held with none reported; otherwise it becomes the newest record, with the next number, PENDING unless it is passed at once,
without failure cause, tamps, targets and result, and unreported, with room made by removing the lowest-numbered reported
record, the latch is set by the halt step, and a HALT report is waiting or in the transmit queue. -/
def Obligations.CandidatesAreRecordedOrLost : Prop :=
  ∀ (p : Part) (c : Candidate), QueueLegal p →
    let q := p.queue
    let full : Prop := 16 ≤ q.records.length ∧ ∀ r ∈ q.records, SleeperRecord.isReported r = false
    (q.exhausted = true ∨ full → recordCandidate p c = handEvent p (.scanOverflow c.centre)) ∧
    (q.exhausted = false → ¬ full →
      let made : SleeperRecord := { number := q.nextNumber, candidate := c, state := .pending, failure := none, tampCount := 0,
                                    targets := none, result := none, reported := false }
      let t := recordCandidate p c
      (∃ room, t.queue.records = room ++ [{ made with state := passedState p made }] ∧
        (q.records.length < 16 → room = q.records) ∧
        (16 ≤ q.records.length → ∀ before r after, q.records = before ++ r :: after →
          (∀ x ∈ before, SleeperRecord.isReported x = false) → SleeperRecord.isReported r = true →
          room = before ++ after)) ∧
      (q.nextNumber < 4294967295 → t.queue.nextNumber = q.nextNumber + 1 ∧ t.queue.exhausted = false) ∧
      (q.nextNumber = 4294967295 → t.queue.nextNumber = 4294967295 ∧ t.queue.exhausted = true) ∧
      (t.queue.latch = if c.halt = true ∧ q.latch = none then some q.nextNumber else q.latch) ∧
      (c.halt = true → q.latch = none →
        t.port.halt = some { sleeper := q.nextNumber, centre := c.centre } ∨
        ∃ seq, { ident := 114 * 16 + p.store.working.partNode,
                 data := byte seq :: 8 :: (writeInt 4 q.nextNumber ++ writeInt 4 c.centre), length := 12 } ∈ t.port.tx) ∧
      t.queue.inPosition = (recordInPosition t).map (·.number) ∧ t.queue.lastStop = stopPointOf t ∧
      t.queue.motion = q.motion ∧ t.queue.aside = q.aside ∧
      t.travel = p.travel ∧ t.scanner = p.scanner ∧ t.plan = p.plan ∧ t.drive = p.drive ∧ t.cycle = p.cycle ∧
      t.store = p.store)

/-- R44: at an advance every PENDING record that C has passed by more than the pass margin becomes SKIPPED or PASSED and
unreported; the other records, the latch and every other block but the port stay as they are, and the stop point is
tested (R50). -/
def Obligations.AdvancesPassPendingRecords : Prop :=
  ∀ p : Part, QueueLegal p →
    let t := passRecords p
    t.queue.records = p.queue.records.map (fun r =>
      if r.state = passedState p r then r else { r with state := passedState p r, reported := false }) ∧
    t.queue = { p.queue with records := t.queue.records, lastStop := t.queue.lastStop } ∧
    (t.queue.records ≠ p.queue.records → t.queue.lastStop = stopPointOf t) ∧
    (t.queue.records = p.queue.records → t = p) ∧
    t = { p with queue := t.queue, port := t.port }

/-- R45, R49, R50, over records in rising number: the stop point's target is the lowest-numbered PENDING record without a skip
whose centre is not behind C by more than the tolerance, and a stop point that differs from the last one handed on is handed
on, with the centre of the record it names when that record is held then, at the hand-on and not at the admission (log
entry 31). The record in position is the one nearest C among those within the tolerance, the lower-numbered of two equally
near. -/
def Obligations.StopPointAndRecordInPosition : Prop :=
  (∀ p : Part, p.queue.records.Pairwise (fun x y => x.number < y.number) →
    let eligible := fun r : SleeperRecord => r ∈ p.queue.records ∧ r.state = .pending ∧ r.candidate.skip = none ∧
      -p.store.working.positionTolerance ≤ aheadBy p.travel.direction r.candidate.centre (chainageC p)
    let target := fun r : SleeperRecord => eligible r ∧ ∀ x, eligible x → r.number ≤ x.number
    ((∀ r, ¬ eligible r) → stopPointOf p = match p.queue.latch with | none => .none | some h => .halt h) ∧
    (∀ r, target r → (∀ h, p.queue.latch = some h → r.number < h) → stopPointOf p = .tamp r.number) ∧
    (∀ r h, target r → p.queue.latch = some h → h ≤ r.number → stopPointOf p = .halt h) ∧
    (stopPointOf p = p.queue.lastStop → testStopPoint p = p) ∧
    (stopPointOf p ≠ p.queue.lastStop → ∀ centre : Option Int,
      (∀ r ∈ p.queue.records, (stopPointOf p).sleeper = some r.number → centre = some r.candidate.centre) →
      ((∀ r ∈ p.queue.records, (stopPointOf p).sleeper ≠ some r.number) → centre = none) →
      testStopPoint p = handStop { p with queue := { p.queue with lastStop := stopPointOf p } }
        { stop := stopPointOf p, centre := centre })) ∧
  (∀ p : Part, p.travel.originState = .set → p.queue.records.Pairwise (fun x y => x.number < y.number) →
    let dist := fun r : SleeperRecord => (r.candidate.centre - chainageC p).natAbs
    (recordInPosition p = none ↔ ∀ r ∈ p.queue.records, p.store.working.positionTolerance < (dist r : Int)) ∧
    (∀ r, recordInPosition p = some r ↔ r ∈ p.queue.records ∧ (dist r : Int) ≤ p.store.working.positionTolerance ∧
      ∀ x ∈ p.queue.records, dist r < dist x ∨ (dist r = dist x ∧ r.number ≤ x.number)))

/-- R48, R51: SKIP MARK and HALT CLEAR, with the stop point tested and, for a flag or a latch that is cleared, a start event
(R46, R152). A HALT CLEAR with the latch clear changes nothing, as R48 has it, and tests no stop point (log entry 27). An
unknown action is refused before a record that cannot be marked (log entry 28). The reports that the request hands on stand
ahead of its reply (log entries 8 and 29). -/
def Obligations.SkipMarkAndHaltClear : Prop :=
  (∀ s r rest, AsksControl s r rest 37 → r.fieldLength = 5 →
    let n := fieldNat r.fields 0 4
    let action := fieldNat r.fields 4 1
    let p := found s.part r rest
    let marked := fun (cause : Option SkipCause) => { p with queue := { p.queue with
      records := p.queue.records.map fun x =>
        if x.number = n then { x with candidate := { x.candidate with skip := cause } } else x } }
    (n = 0 ∨ 1 < action → exec .skipMark s = .next (refusedWith s r rest 4)) ∧
    (n ≠ 0 → action ≤ 1 → (∀ x, recordAt p.queue.records n = some x → x.state ≠ .pending ∨ x.candidate.skip = some .allFolded) →
      exec .skipMark s = .next (refusedWith s r rest 3)) ∧
    (∀ x, n ≠ 0 → recordAt p.queue.records n = some x → x.state = .pending → x.candidate.skip ≠ some .allFolded →
      (action = 0 → exec .skipMark s = .next (replied s (testStopPoint (marked (some .manual))) r 0 [])) ∧
      (action = 1 → x.candidate.skip = none → exec .skipMark s = .next (replied s (testStopPoint (marked none)) r 0 [])) ∧
      (action = 1 → x.candidate.skip ≠ none →
        exec .skipMark s = .next (replied s (startEvent (testStopPoint (marked none))) r 0 [])))) ∧
  (∀ s r rest, AsksControl s r rest 38 → r.fieldLength = 0 →
    let p := found s.part r rest
    (p.queue.latch = none → exec .haltClear s = .next (replied s p r 0 [])) ∧
    (∀ h, p.queue.latch = some h →
      (∀ x ∈ p.queue.records, h < x.number → x.candidate.halt = true → x.state ≠ .pending) →
      exec .haltClear s =
        .next (replied s (startEvent (testStopPoint { p with queue := { p.queue with latch := none } })) r 0 [])) ∧
    (∀ h x, p.queue.latch = some h → p.queue.records.Pairwise (fun y z => y.number < z.number) → x ∈ p.queue.records →
      h < x.number → x.candidate.halt = true → x.state = .pending →
      (∀ y ∈ p.queue.records, h < y.number → y.candidate.halt = true → y.state = .pending → x.number ≤ y.number) →
      exec .haltClear s = .next (replied s (startEvent (testStopPoint
        (handHalt { p with queue := { p.queue with latch := some x.number } }
          { sleeper := x.number, centre := x.candidate.centre }))) r 0 [])))

/-- R52, R53, R68, R103, R191: QUEUE READ in the record form and in the list form, PLAN READ, and CORR READ in its two forms.
The layout of a listed record, of the latch, of a slot's holder and of absent contents, which end with their presence code, is
that of log entry 24, and an unset half is carried as in log entry 23. The bytes of a record are those of
`ReportsAreAdmittedInTheArbitersOrder`, the bytes of a descriptor those of `PlanWriteStoresDescriptorsInRange`. -/
def Obligations.ReadsReturnWhatIsHeld : Prop :=
  (∀ s r rest, AsksRead s r rest 36 → r.fieldLength = 5 →
    let form := fieldNat r.fields 0 1
    let n := fieldNat r.fields 1 4
    let q := s.part.queue
    let above := q.records.filter fun x => decide (n ≤ x.number)
    (2 ≤ form → exec .queueRead s = .next (refusedWith s r rest 4)) ∧
    (form = 0 → (∀ x ∈ q.records, x.number ≠ n) → exec .queueRead s = .next (refusedWith s r rest 3)) ∧
    (∀ x, form = 0 → recordAt q.records n = some x →
      exec .queueRead s = .next (replied s (found s.part r rest) r 0
        (recordFields x ++ [if x.reported then 1 else 0]))) ∧
    (form = 1 → exec .queueRead s = .next (replied s (found s.part r rest) r 0
      ([byte q.records.length] ++ writeInt 4 (q.latch.getD 0 : Nat) ++
        (above.take 10).flatMap (fun x => writeInt 4 x.number ++
          [byte (x.state.code + if SleeperRecord.isReported x then 128 else 0)]) ++
        [byte (above.length - (above.take 10).length)])))) ∧
  (∀ s r rest, AsksRead s r rest 19 → r.fieldLength = 2 →
    let k := fieldNat r.fields 0 2
    let v := slotAt s.part.plan k
    let role := fun (c : Context) => match holdsSlot c.current k, holdsSlot c.previous k with
      | true, true => 3 | true, false => 1 | false, true => 2 | false, false => 0
    let holder : List Byte :=
      if v.state ≠ .inUse then [0, 0, 0]
      else if role s.part.ctxH ≠ 0 then [1, 0, byte (role s.part.ctxH)]
      else if role s.part.ctxV ≠ 0 then [1, 1, byte (role s.part.ctxV)]
      else [0, 0, 0]
    (511 < k → exec .planRead s = .next (refusedWith s r rest 4)) ∧
    (k ≤ 511 → v.contents = none →
      exec .planRead s = .next (replied s (found s.part r rest) r 0
        ([byte v.state.code, byte (completionCode v.code)] ++ holder ++ [0]))) ∧
    (∀ d, k ≤ 511 → v.contents = some d →
      exec .planRead s = .next (replied s (found s.part r rest) r 0
        ([byte v.state.code, byte (completionCode v.code)] ++ holder ++ 1 :: descriptorFields d)))) ∧
  (∀ s r rest, AsksRead s r rest 27 →
    let form := fieldNat r.fields 0 1
    let c := s.part.corr
    let entry := fun (n : Nat) => writeInt 2 n ++ writeInt 4 (c.base + n * c.spacing) ++
      writeInt 2 ((entryAt c.entries n).lateral.getD (-32768)) ++ writeInt 2 ((entryAt c.entries n).vertical.getD (-32768))
    (r.fieldLength = 0 → exec .corrRead s = .next (refusedWith s r rest 5)) ∧
    (r.fieldLength ≠ 0 → 2 ≤ form → exec .corrRead s = .next (refusedWith s r rest 4)) ∧
    (r.fieldLength ≠ 0 → (form = 0 ∧ r.fieldLength ≠ 1) ∨ (form = 1 ∧ r.fieldLength ≠ 3) →
      exec .corrRead s = .next (refusedWith s r rest 5)) ∧
    (form = 1 → r.fieldLength = 3 →
      let n := fieldNat r.fields 1 2
      (255 < n → exec .corrRead s = .next (refusedWith s r rest 4)) ∧
      (n ≤ 255 → exec .corrRead s = .next (replied s (found s.part r rest) r 0 (entry n)))) ∧
    (form = 0 → r.fieldLength = 1 →
      (c.window = none → exec .corrRead s = .next (refusedWith s r rest 9)) ∧
      (∀ w, c.window = some w → w.owner ≠ r.node → exec .corrRead s = .next (refusedWith s r rest 8)) ∧
      (∀ w, c.window = some w → w.owner = r.node →
        let next := if w.mode = .edit then w.cursor else if w.cursor = w.last then w.first else w.cursor + 1
        exec .corrRead s = .next (replied s { found s.part r rest with
          corr := { c with window := some { w with cursor := next } } } r 0 (entry w.cursor ++ writeInt 2 next)))))

/-! ### Plan memory and the plan contexts -/

/-- R56, R95: a numbered store reads back what was last written at a number and nothing else changes; writing what an
unlisted number reads as removes the entry, so that the canonical form is kept; and PLAN CLEAR's range reads as empty. -/
def Obligations.StoresReadBackAsWritten : Prop :=
  (∀ (plan : Table Slot) (k j : Nat) (v : Slot), Table.wf emptySlot plan = true →
    slotAt (setSlot plan k v) j = (if j = k then v else slotAt plan j) ∧ Table.wf emptySlot (setSlot plan k v) = true) ∧
  (∀ (es : Table CorrEntry) (k j : Nat) (v : CorrEntry), Table.wf unsetEntry es = true →
    entryAt (setEntry es k v) j = (if j = k then v else entryAt es j) ∧ Table.wf unsetEntry (setEntry es k v) = true) ∧
  (∀ (plan : Table Slot) (first last j : Nat), Table.wf emptySlot plan = true →
    slotAt (clearSlots plan first last) j = (if first ≤ j ∧ j ≤ last then emptySlot else slotAt plan j) ∧
    Table.wf emptySlot (clearSlots plan first last) = true)

/-- R57 to R60, R63, R64, R191: a PLAN WRITE whose fields are those of a descriptor within its ranges makes the slot LOADED with
that descriptor, unless the slot is IN_USE; a slot outside 0..511 or an unknown kind, then a length that is not the kind's, and
then a field outside its range refuse it (without a whole slot, or with a slot in range and no kind code, BAD_LENGTH by log
entry 20). For each kind the fields that its bytes hold are read and held to the ranges of R57 to R60, and a descriptor that is
accepted holds the values of its bytes; an absent link or diverging part is absent whatever its bytes hold (log entry 20). R191:
the bytes of a descriptor of each kind, from its kind code on, in PLAN WRITE and in PLAN READ. -/
def Obligations.PlanWriteStoresDescriptorsInRange : Prop :=
  (∀ s r rest, AsksData s r rest 16 →
    let slot := fieldNat r.fields 0 2
    let kind := fieldNat r.fields 2 1
    let F := r.fieldLength
    let p := s.part
    let badLength : Prop :=
      (kind = 1 ∧ (F ≠ 20 ∧ F ≠ 24 ∨ F = 20 ∧ fieldNat r.fields 19 1 = 1 ∨ F = 24 ∧ fieldNat r.fields 19 1 ≠ 1)) ∨
        (kind = 2 ∧ F ≠ 14) ∨ (kind = 3 ∧ F ≠ 5) ∨ (kind = 4 ∧ F ≠ 8) ∨ (kind = 5 ∧ F ≠ 3) ∨ (kind = 6 ∧ F ≠ 7)
    (∀ d, DescriptorWritable d → slot ≤ 511 → r.fields = writeInt 2 slot ++ descriptorFields d →
      ((slotAt p.plan slot).state ≠ .inUse → exec .planWrite s = .next (replied s
        { found p r rest with plan := setSlot p.plan slot { state := .loaded, code := none, contents := some d } } r 0 [])) ∧
      ((slotAt p.plan slot).state = .inUse → exec .planWrite s = .next (refusedWith s r rest 10))) ∧
    (F < 2 → exec .planWrite s = .next (refusedWith s r rest 5)) ∧
    (2 ≤ F → 511 < slot → exec .planWrite s = .next (refusedWith s r rest 4)) ∧
    (F = 2 → slot ≤ 511 → exec .planWrite s = .next (refusedWith s r rest 5)) ∧
    (3 ≤ F → kind = 0 ∨ 6 < kind → exec .planWrite s = .next (refusedWith s r rest 4)) ∧
    (3 ≤ F → slot ≤ 511 → badLength → exec .planWrite s = .next (refusedWith s r rest 5)) ∧
    (3 ≤ F → slot ≤ 511 → 1 ≤ kind → kind ≤ 6 → ¬ badLength →
      (descriptorOf r.fields kind = none → exec .planWrite s = .next (refusedWith s r rest 4)) ∧
      (∀ d, descriptorOf r.fields kind = some d →
        ((slotAt p.plan slot).state = .inUse → exec .planWrite s = .next (refusedWith s r rest 10)) ∧
        ((slotAt p.plan slot).state ≠ .inUse → exec .planWrite s = .next (replied s { found p r rest with
          plan := setSlot p.plan slot { state := .loaded, code := none, contents := some d } } r 0 []))))) ∧
  (∀ fs : List Byte,
    let nat := fun (at_ len : Nat) => fieldNat fs at_ len
    let int := fun (at_ len : Nat) => fieldInt fs at_ len
    let between := fun (low high x : Int) => low ≤ x ∧ x ≤ high
    let linkGood := fun (at_ : Nat) => nat at_ 1 = 0 ∨ nat at_ 1 = 1 ∧ nat (at_ + 1) 2 ≤ 511
    let linkAt := fun (at_ : Nat) => if nat at_ 1 = 0 then none else some (nat (at_ + 1) 2)
    let goodH : Prop := between 500 1000000 (nat 3 4) ∧ between (-20000) 20000 (int 7 2) ∧ between (-20000) 20000 (int 9 2) ∧
      between (-2000) 2000 (int 11 2) ∧ between (-2000) 2000 (int 13 2) ∧ nat 15 1 ≤ 2 ∧ linkGood 16 ∧
      (nat 19 1 = 0 ∨ nat 19 1 = 1 ∧ between (-2000) 6000 (int 20 2) ∧ between (-2000) 6000 (int 22 2))
    let goodV : Prop := between 500 1000000 (nat 3 4) ∧ between (-2000) 2000 (int 7 2) ∧ nat 9 2 ≤ 1500 ∧ linkGood 11
    let goodCall : Prop := nat 3 2 ≤ 511 ∧ nat 5 1 = 1 ∧ nat 6 2 ≤ 511
    let goodRepeat : Prop := 1 ≤ nat 3 1 ∧ nat 4 1 = 1 ∧ nat 5 2 ≤ 511
    (goodH → descriptorOf fs 1 = some (.segmentH
      { length := nat 3 4, curvatureStart := int 7 2, curvatureEnd := int 9 2, cantStart := int 11 2, cantEnd := int 13 2
        reference := if nat 15 1 = 0 then .left else if nat 15 1 = 1 then .right else .low
        diverging := if nat 19 1 = 0 then none else some (int 20 2, int 22 2), link := linkAt 16 })) ∧
    (¬ goodH → descriptorOf fs 1 = none) ∧
    (goodV → descriptorOf fs 2 = some (.segmentV
      { length := nat 3 4, curvature := int 7 2, baseLift := nat 9 2, link := linkAt 11 })) ∧
    (¬ goodV → descriptorOf fs 2 = none) ∧
    (nat 3 2 ≤ 511 → descriptorOf fs 3 = some (.branch (nat 3 2))) ∧ (511 < nat 3 2 → descriptorOf fs 3 = none) ∧
    (goodCall → descriptorOf fs 4 = some (.call (nat 3 2) (nat 6 2))) ∧ (¬ goodCall → descriptorOf fs 4 = none) ∧
    descriptorOf fs 5 = some .ret ∧
    (goodRepeat → descriptorOf fs 6 = some (.repeatRun (nat 3 1) (nat 5 2))) ∧
    (¬ goodRepeat → descriptorOf fs 6 = none)) ∧
  (∀ (fs : List Byte) (kind : Nat) (d : Descriptor), descriptorOf fs kind = some d →
    DescriptorWritable d ∧ (descriptorFields d).head? = some (byte kind)) ∧
  (∀ d : Descriptor,
    let link := fun (l : Option Nat) => match l with | none => [0, 0, 0] | some k => (1 : Byte) :: writeInt 2 k
    descriptorFields d = match d with
      | .segmentH s => 1 :: (writeInt 4 s.length ++ writeInt 2 s.curvatureStart ++ writeInt 2 s.curvatureEnd ++
          writeInt 2 s.cantStart ++ writeInt 2 s.cantEnd ++
          [match s.reference with | .left => 0 | .right => 1 | .low => 2] ++ link s.link ++
          match s.diverging with | none => [0] | some (x, y) => 1 :: (writeInt 2 x ++ writeInt 2 y))
      | .segmentV s => 2 :: (writeInt 4 s.length ++ writeInt 2 s.curvature ++ writeInt 2 s.baseLift ++ link s.link)
      | .branch target => 3 :: writeInt 2 target
      | .call target next => 4 :: (writeInt 2 target ++ link (some next))
      | .ret => [5]
      | .repeatRun count next => 6 :: byte count :: link (some next))

/-- R65, R67: PLAN LINK sets the link of a segment slot in every slot state and nothing else of it, and takes an absent link
whatever its bytes hold (log entry 20); PLAN CLEAR empties a range that holds no IN_USE slot. A field out of range is refused
with BAD_FIELD first, whatever the slots hold (log entry 28). -/
def Obligations.PlanLinkAndClear : Prop :=
  (∀ s r rest, AsksData s r rest 17 → r.fieldLength = 5 →
    let slot := fieldNat r.fields 0 2
    let code := fieldNat r.fields 2 1
    let n := fieldNat r.fields 3 2
    let old := slotAt s.part.plan slot
    let link : Option Nat := if code = 0 then none else some n
    let good : Prop := slot ≤ 511 ∧ (code = 0 ∨ code = 1 ∧ n ≤ 511)
    (¬ good → exec .planLink s = .next (refusedWith s r rest 4)) ∧
    (good → (∀ d, old.contents = some d → isFlow d = true) → exec .planLink s = .next (refusedWith s r rest 3)) ∧
    (∀ h, good → old.contents = some (.segmentH h) → exec .planLink s = .next (replied s { found s.part r rest with
      plan := setSlot s.part.plan slot { old with contents := some (.segmentH { h with link := link }) } } r 0 [])) ∧
    (∀ v, good → old.contents = some (.segmentV v) → exec .planLink s = .next (replied s { found s.part r rest with
      plan := setSlot s.part.plan slot { old with contents := some (.segmentV { v with link := link }) } } r 0 []))) ∧
  (∀ s r rest, AsksData s r rest 18 → r.fieldLength = 4 → Table.wf emptySlot s.part.plan = true →
    let first := fieldNat r.fields 0 2
    let last := fieldNat r.fields 2 2
    let good : Prop := first ≤ last ∧ last ≤ 511
    let busy : Prop := ∃ k, first ≤ k ∧ k ≤ last ∧ (slotAt s.part.plan k).state = .inUse
    (¬ good → exec .planClear s = .next (refusedWith s r rest 4)) ∧
    (good → busy → exec .planClear s = .next (refusedWith s r rest 10)) ∧
    (good → ¬ busy → ∃ plan, exec .planClear s = .next (replied s { found s.part r rest with plan := plan } r 0 []) ∧
      ∀ k, slotAt plan k = if first ≤ k ∧ k ≤ last then emptySlot else slotAt s.part.plan k))

/-- R61, R62, R76 to R80: what a fetch does at each flow descriptor (the slot it goes on to, the marks, the call stack and the
repeat remaining) and where it dies. It changes no contents; it marks flow descriptors only, each DONE EXECUTED or
REPEAT_CANCELLED; it ends at a segment of the context's own kind, which becomes IN_USE and gives its shadow copy, or dies, and
then no segment slot changes. A fetch that stands at a segment of the context's own kind reaches it, however many flow
descriptors are still allowed, and at one of the other kind it dies WRONG_KIND. A fetch begins with 16 flow descriptors allowed.
-/
def Obligations.FetchesFollowFlowDescriptors : Prop :=
  (∀ (i : ContextId) (w : Walk) (entry : Nat), fetch i w entry = fetchFrom i 16 w entry) ∧
  (∀ (i : ContextId) (w : Walk) (k left : Nat),
    let marked := fun (code : CompletionCode) =>
      setSlot w.plan k { slotAt w.plan k with state := .done, code := some code }
    ((slotAt w.plan k).contents = none → fetchFrom i left w k = (w, .died .emptySlot k)) ∧
    (∀ d, (slotAt w.plan k).contents = some d → isFlow d = true → fetchFrom i 0 w k = (w, .died .flowLoop k)) ∧
    (∀ d, (slotAt w.plan k).contents = some d → isFlow d = false →
      (isOwnKind i d = true → fetchFrom i left w k =
        ({ w with plan := setSlot w.plan k { slotAt w.plan k with state := .inUse, code := none } }, .reached k d)) ∧
      (isOwnKind i d = false → fetchFrom i left w k = (w, .died .wrongKind k))) ∧
    (∀ target, (slotAt w.plan k).contents = some (.branch target) →
      fetchFrom i (left + 1) w k = fetchFrom i left { w with plan := marked .executed } target) ∧
    (∀ target link, (slotAt w.plan k).contents = some (.call target link) →
      (w.stack.length < 4 → fetchFrom i (left + 1) w k =
        fetchFrom i left { w with plan := marked .executed, stack := w.stack ++ [link] } target) ∧
      (4 ≤ w.stack.length → fetchFrom i (left + 1) w k = (w, .died .stackOver k))) ∧
    ((slotAt w.plan k).contents = some .ret →
      (w.stack = [] → fetchFrom i (left + 1) w k = (w, .died .stackUnder k)) ∧
      (∀ older newest, w.stack = older ++ [newest] → fetchFrom i (left + 1) w k =
        fetchFrom i left { w with plan := marked .executed, stack := older } newest)) ∧
    (∀ count link, (slotAt w.plan k).contents = some (.repeatRun count link) →
      ((∃ d, (slotAt w.plan link).contents = some d ∧ isFlow d = true) → fetchFrom i (left + 1) w k =
        fetchFrom i left { w with plan := marked .repeatCancelled, repeatLeft := 0 } link) ∧
      ((∀ d, (slotAt w.plan link).contents = some d → isFlow d = false) → fetchFrom i (left + 1) w k =
        fetchFrom i left { w with plan := marked .executed, repeatLeft := count } link))) ∧
  (∀ (i : ContextId) (w w' : Walk) (entry : Nat) (e : FetchEnd), Table.wf emptySlot w.plan = true →
    fetch i w entry = (w', e) →
    Table.wf emptySlot w'.plan = true ∧
    (∀ j, (slotAt w'.plan j).contents = (slotAt w.plan j).contents) ∧
    (∀ j d, (slotAt w.plan j).contents = some d → isFlow d = true → slotAt w'.plan j = slotAt w.plan j ∨
      ((slotAt w'.plan j).state = .done ∧
        (slotAt w'.plan j).code ∈ [some CompletionCode.executed, some .repeatCancelled])) ∧
    (∀ k shadow, e = .reached k shadow →
      (slotAt w.plan k).contents = some shadow ∧ isOwnKind i shadow = true ∧
      slotAt w'.plan k = { slotAt w.plan k with state := .inUse, code := none } ∧
      ∀ j d, j ≠ k → (slotAt w.plan j).contents = some d → isFlow d = false → slotAt w'.plan j = slotAt w.plan j) ∧
    (∀ code k, e = .died code k →
      (code = .emptySlot ↔ (slotAt w.plan k).contents = none) ∧
      (code = .wrongKind ↔ ∃ d, (slotAt w.plan k).contents = some d ∧ isFlow d = false ∧ isOwnKind i d = false) ∧
      ∀ j d, (slotAt w.plan j).contents = some d → isFlow d = false → slotAt w'.plan j = slotAt w.plan j))

/-- R73 to R75, R81, R84, R93: PLAN RUN. A start ahead of C arms the context; otherwise it fetches from the first slot, and is
RUNNING from the start, or from C when none is given, and catches up; or it is DEAD. An absent start is taken whatever its bytes
hold (log entry 20). At an advance an ARMED context whose start C has not reached is as it was; when C is at its start or beyond
it, the context fetches from its first slot in the same way; a RUNNING one catches up, and any other takes no advance. The
reports that the request hands on stand ahead of its reply (log entries 8 and 29). -/
def Obligations.PlanRunArmsOrStarts : Prop :=
  (∀ s r rest, AsksData s r rest 20 → r.fieldLength = 8 → PlanLegal s.part →
    let ctx := fieldNat r.fields 0 1
    let first := fieldNat r.fields 1 2
    let code := fieldNat r.fields 3 1
    let x := fieldInt r.fields 4 4
    let i : ContextId := if ctx = 0 then .h else .v
    let p := found s.part r rest
    let c := p.ctx i
    let start := if code = 0 then chainageC p else x
    let good : Prop := ctx ≤ 1 ∧ first ≤ 511 ∧ (code = 0 ∨ code = 1 ∧ -99999999 ≤ x ∧ x ≤ 99999999)
    (¬ good → exec .planRun s = .next (refusedWith s r rest 4)) ∧
    (good → p.travel.originState = .none ∨ c.state ≠ .stopped → exec .planRun s = .next (refusedWith s r rest 3)) ∧
    (good → p.travel.originState = .set → c.state = .stopped →
      (0 < aheadBy p.travel.direction start (chainageC p) →
        exec .planRun s = .next (replied s
          (handEvent (p.setCtx i { c with state := .armed, armed := some (first, start) })
            (.planState i .armed none (some first))) r 0 [1])) ∧
      (∀ w k shadow, aheadBy p.travel.direction start (chainageC p) ≤ 0 →
        fetch i { plan := p.plan, stack := c.stack, repeatLeft := c.repeatLeft } first = (w, .reached k shadow) →
        let q := catchUp (handEvent (({ p with plan := w.plan } : Part).setCtx i
          { state := .running, dead := none, armed := none, previous := none, repeatLeft := w.repeatLeft, stack := w.stack,
            current := some { slot := k, shadow := shadow, start := start } }) (.planState i .running none (some k))) i
        exec .planRun s = .next (replied s q r 0 [byte (q.ctx i).state.code])) ∧
      (∀ w dead k, aheadBy p.travel.direction start (chainageC p) ≤ 0 →
        fetch i { plan := p.plan, stack := c.stack, repeatLeft := c.repeatLeft } first = (w, .died dead k) →
        exec .planRun s = .next (replied s (handEvent (({ p with plan := w.plan } : Part).setCtx i
          { state := .dead, dead := some (dead, k), armed := none, current := none, previous := none,
            repeatLeft := w.repeatLeft, stack := w.stack }) (.planState i .dead (some dead) (some k))) r 0 [4])))) ∧
  (∀ (p : Part) (i : ContextId), PlanLegal p →
    let c := p.ctx i
    (c.state ∈ [ContextState.stopped, .starved, .dead] → contextAdvance i p = p) ∧
    (c.state = .running → contextAdvance i p = catchUp p i) ∧
    (∀ first start, c.state = .armed → c.armed = some (first, start) →
      (0 < aheadBy p.travel.direction start (chainageC p) → contextAdvance i p = p) ∧
      (∀ w k shadow, aheadBy p.travel.direction start (chainageC p) ≤ 0 →
        fetch i { plan := p.plan, stack := c.stack, repeatLeft := c.repeatLeft } first = (w, .reached k shadow) →
        contextAdvance i p = catchUp (handEvent (({ p with plan := w.plan } : Part).setCtx i
          { state := .running, dead := none, armed := none, previous := none, repeatLeft := w.repeatLeft, stack := w.stack,
            current := some { slot := k, shadow := shadow, start := start } }) (.planState i .running none (some k))) i) ∧
      (∀ w dead k, aheadBy p.travel.direction start (chainageC p) ≤ 0 →
        fetch i { plan := p.plan, stack := c.stack, repeatLeft := c.repeatLeft } first = (w, .died dead k) →
        contextAdvance i p = handEvent (({ p with plan := w.plan } : Part).setCtx i
          { state := .dead, dead := some (dead, k), armed := none, current := none, previous := none,
            repeatLeft := w.repeatLeft, stack := w.stack }) (.planState i .dead (some dead) (some k)))))

/-- R87, R88, R61, R93: PLAN WAKE on a STARVED context follows the link that its slot now holds, or finds none; PLAN STOP cuts
the slots that the context holds and leaves it STOPPED. The reports that the request hands on stand ahead of its reply (log
entries 8 and 29). -/
def Obligations.PlanWakeAndStop : Prop :=
  (∀ s r rest, AsksData s r rest 21 → r.fieldLength = 1 → PlanLegal s.part →
    let ctx := fieldNat r.fields 0 1
    let i : ContextId := if ctx = 0 then .h else .v
    let p := found s.part r rest
    let c := p.ctx i
    (2 ≤ ctx → exec .planWake s = .next (refusedWith s r rest 4)) ∧
    (ctx ≤ 1 → c.state ∈ [ContextState.stopped, .armed, .dead] → exec .planWake s = .next (refusedWith s r rest 3)) ∧
    (ctx ≤ 1 → c.state = .running → exec .planWake s = .next (replied s p r 0 [2])) ∧
    (∀ held, ctx ≤ 1 → c.state = .starved → c.current = some held →
      ((slotAt p.plan held.slot).contents.bind segmentLink = none → exec .planWake s = .next (replied s p r 0 [3])) ∧
      (∀ link w k shadow, (slotAt p.plan held.slot).contents.bind segmentLink = some link →
        fetch i { plan := p.plan, stack := c.stack, repeatLeft := c.repeatLeft } link = (w, .reached k shadow) →
        let q := catchUp (handEvent (({ p with plan := w.plan } : Part).setCtx i
          { c with state := .running, previous := some held, repeatLeft := w.repeatLeft, stack := w.stack,
                   current := some { slot := k, shadow := shadow, start := segmentEndOf p.travel.direction held } })
            (.planState i .running none (some k))) i
        exec .planWake s = .next (replied s q r 0 [byte (q.ctx i).state.code])) ∧
      (∀ link w dead k, (slotAt p.plan held.slot).contents.bind segmentLink = some link →
        fetch i { plan := p.plan, stack := c.stack, repeatLeft := c.repeatLeft } link = (w, .died dead k) →
        exec .planWake s = .next (replied s (handEvent (({ p with plan := w.plan } : Part).setCtx i
          { state := .dead, dead := some (dead, k), armed := none, current := some held, previous := some held,
            repeatLeft := w.repeatLeft, stack := w.stack }) (.planState i .dead (some dead) (some k))) r 0 [4])))) ∧
  (∀ s r rest, AsksData s r rest 22 → r.fieldLength = 1 → PlanLegal s.part →
    let ctx := fieldNat r.fields 0 1
    let i : ContextId := if ctx = 0 then .h else .v
    let p := found s.part r rest
    let c := p.ctx i
    (2 ≤ ctx → exec .planStop s = .next (refusedWith s r rest 4)) ∧
    (ctx ≤ 1 → c.state = .stopped → exec .planStop s = .next (replied s p r 0 [])) ∧
    (ctx ≤ 1 → c.state ≠ .stopped → ∃ plan,
      exec .planStop s = .next (replied s (handEvent (({ p with plan := plan } : Part).setCtx i
        { state := .stopped, dead := none, armed := none, current := none, previous := none, repeatLeft := 0,
          stack := [] }) (.planState i .stopped none none)) r 0 []) ∧
      (∀ k, Holds c k → slotAt plan k = { slotAt p.plan k with state := .done, code := some .cut }) ∧
      (∀ k, ¬ Holds c k → slotAt plan k = slotAt p.plan k)))

/-- R82, R83, R84: one segment end of a RUNNING context: the old previous slot becomes DONE TRAVERSED unless the current
segment holds it; a repeat runs the segment again from its shadow copy; an absent link leaves the context STARVED; a present
one is fetched through. -/
def Obligations.SegmentEndsFollowTheLink : Prop :=
  ∀ (p : Part) (i : ContextId) (r : SegmentRecord), PlanLegal p → (p.ctx i).state = .running → (p.ctx i).current = some r →
    let c := p.ctx i
    let start := r.start + (match p.travel.direction with | .ascending => 1 | .descending => -1) * segmentLength r.shadow
    ∃ plan,
      (∀ k, slotAt plan k =
        if (∃ old, c.previous = some old ∧ old.slot = k) ∧ k ≠ r.slot then
          { slotAt p.plan k with state := .done, code := some .traversed }
        else slotAt p.plan k) ∧
      (0 < c.repeatLeft → segmentEnd p i r = ({ p with plan := plan } : Part).setCtx i
        { c with previous := some r, repeatLeft := c.repeatLeft - 1, current := some { r with start := start } }) ∧
      (c.repeatLeft = 0 → (slotAt p.plan r.slot).contents.bind segmentLink = none →
        segmentEnd p i r = handEvent (({ p with plan := plan } : Part).setCtx i
          { c with state := .starved, previous := some r, current := some r }) (.planState i .starved none (some r.slot))) ∧
      (∀ link w k shadow, c.repeatLeft = 0 → (slotAt p.plan r.slot).contents.bind segmentLink = some link →
        fetch i { plan := plan, stack := c.stack, repeatLeft := 0 } link = (w, .reached k shadow) →
        segmentEnd p i r = ({ p with plan := w.plan } : Part).setCtx i
          { c with previous := some r, current := some { slot := k, shadow := shadow, start := start },
                   repeatLeft := w.repeatLeft, stack := w.stack }) ∧
      (∀ link w dead k, c.repeatLeft = 0 → (slotAt p.plan r.slot).contents.bind segmentLink = some link →
        fetch i { plan := plan, stack := c.stack, repeatLeft := 0 } link = (w, .died dead k) →
        segmentEnd p i r = handEvent (({ p with plan := w.plan } : Part).setCtx i
          { state := .dead, dead := some (dead, k), armed := none, previous := some r, current := some r,
            repeatLeft := w.repeatLeft, stack := w.stack }) (.planState i .dead (some dead) (some k)))

/-- R75, R84: the catch-up stops at the first current segment whose end lies ahead of C, or when the context is no longer RUNNING:
no RUNNING context is left at or beyond the end of its current segment, however many ends that takes. So every step keeps the
end of a RUNNING context's current segment, and the start of an ARMED context, ahead of C. -/
def Obligations.CatchUpLeavesNoEndBehind : Prop :=
  (∀ s t : State, PlanLegal s.part → StoreLegal s.part → ContextsAhead s.part → step s = .next t → ContextsAhead t.part) ∧
  (∀ (p : Part) (i : ContextId), PlanLegal p → (p.ctx i).state = .running →
    let q := catchUp p i
    PlanLegal q ∧ chainageC q = chainageC p ∧
    (q.ctx i).state ∈ [ContextState.running, .starved, .dead] ∧
    ((q.ctx i).state = .running → ∃ r, (q.ctx i).current = some r ∧
      0 < aheadBy p.travel.direction (segmentEndOf p.travel.direction r) (chainageC p)))

/-- R89, R90, R91, R113: the answer "geometry at C" of either context. A context that holds no segment answers NONE, with no
values. C within the current segment, and else C within the previous one, is IN_SEGMENT, with the distance of C into that segment
and its fields; else C at or beyond the end of the current segment is HOLD_END, with the current segment's values at its end and
u its length; and only otherwise the answer is HOLD_START, with the start values of the oldest segment held and u 0. -/
def Obligations.GeometryAtCComesFromAHeldSegment : Prop :=
  ∀ p : Part, PlanLegal p →
    let ahead := fun (x : Int) => aheadBy p.travel.direction (chainageC p) x
    let within := fun (r : SegmentRecord) => 0 ≤ ahead r.start ∧ ahead r.start < segmentLength r.shadow
    let answers := fun (i : ContextId) (mode : GeometryMode) (r : SegmentRecord) =>
      match i with
      | .h => ∃ h, r.shadow = .segmentH h ∧ answerH p = (mode, some (match mode with
        | .holdEnd =>
          { length := h.length, u := h.length, curvatureStart := h.curvatureEnd, curvatureEnd := h.curvatureEnd,
            cantStart := h.cantEnd, cantEnd := h.cantEnd, reference := h.reference,
            diverging := h.diverging.map fun x => (x.2, x.2) }
        | .holdStart =>
          { length := h.length, u := 0, curvatureStart := h.curvatureStart, curvatureEnd := h.curvatureStart,
            cantStart := h.cantStart, cantEnd := h.cantStart, reference := h.reference,
            diverging := h.diverging.map fun x => (x.1, x.1) }
        | _ =>
          { length := h.length, u := ahead r.start, curvatureStart := h.curvatureStart, curvatureEnd := h.curvatureEnd,
            cantStart := h.cantStart, cantEnd := h.cantEnd, reference := h.reference, diverging := h.diverging }))
      | .v => ∃ v, r.shadow = .segmentV v ∧ answerV p = (mode, some
          { u := match mode with | .holdEnd => v.length | .holdStart => 0 | _ => ahead r.start
            curvature := v.curvature, baseLift := v.baseLift })
    ∀ i : ContextId,
      let c := p.ctx i
      (c.current = none →
        match i with
        | .h => answerH p = (.none, none)
        | .v => answerV p = (.none, none)) ∧
      (c.current = none ↔ c.state = .stopped ∨ c.state = .armed ∨ (c.state = .dead ∧ c.current = none)) ∧
      (∀ cur, c.current = some cur →
        (within cur → answers i .inSegment cur) ∧
        (∀ prev, ¬ within cur → c.previous = some prev → within prev → answers i .inSegment prev) ∧
        (¬ within cur → (∀ prev, c.previous = some prev → ¬ within prev) →
          (segmentLength cur.shadow ≤ ahead cur.start → answers i .holdEnd cur) ∧
          (ahead cur.start < segmentLength cur.shadow → answers i .holdStart (c.previous.getD cur))))

/-! ### Front corrections and lift trim -/

/-- R99, R100: CORR GRID sets the grid and unsets every entry, and is refused with BUSY while a window is open, the owner's
own included (R101), its fields having been checked before (log entry 28); CORR WINDOW opens a window of its sender with the cursor at the first entry. -/
def Obligations.CorrGridAndWindow : Prop :=
  (∀ s r rest, AsksData s r rest 24 → r.fieldLength = 8 →
    let base := fieldInt r.fields 0 4
    let spacing := fieldNat r.fields 4 4
    let good : Prop := -99999999 ≤ base ∧ base ≤ 99999999 ∧ 1000 ≤ spacing ∧ spacing ≤ 20000
    (¬ good → exec .corrGrid s = .next (refusedWith s r rest 4)) ∧
    (good → s.part.corr.window ≠ none → exec .corrGrid s = .next (refusedWith s r rest 2)) ∧
    (good → s.part.corr.window = none → exec .corrGrid s = .next (replied s { found s.part r rest with
      corr := { entries := [], base := base, spacing := spacing, window := none } } r 0 []))) ∧
  (∀ s r rest, AsksData s r rest 25 → r.fieldLength = 5 →
    let first := fieldNat r.fields 0 2
    let last := fieldNat r.fields 2 2
    let code := fieldNat r.fields 4 1
    let good : Prop := first ≤ last ∧ last ≤ 255 ∧ code ≤ 1
    (¬ good → exec .corrWindow s = .next (refusedWith s r rest 4)) ∧
    (good → exec .corrWindow s = .next (replied s { found s.part r rest with corr := { s.part.corr with
      window := some { owner := r.node, first := first, last := last, cursor := first,
                       mode := if code = 0 then .write else .edit } } } r 0 (writeInt 2 first))))

/-- R102: CORR DATA writes its pairs at the cursor, which wraps from the last entry to the first, and answers CLAMPED when a
value was replaced by an end of the range; and who may send it. -/
def Obligations.CorrDataWritesItsPairs : Prop :=
  ∀ s r rest, AsksRead s r rest 26 →
    (s.part.corr.window = none → exec .corrData s = .next (refusedWith s r rest 9)) ∧
    (∀ w, s.part.corr.window = some w → w.owner ≠ r.node → exec .corrData s = .next (refusedWith s r rest 8)) ∧
    (∀ w, s.part.corr.window = some w → w.owner = r.node → r.fieldLength % 4 ≠ 0 ∨ r.fieldLength = 0 ∨ 56 < r.fieldLength →
      exec .corrData s = .next (refusedWith s r rest 5)) ∧
    (∀ w n, s.part.corr.window = some w → w.owner = r.node → r.fieldLength = 4 * n → 1 ≤ n → n ≤ 14 →
      CorrectionsLegal s.part →
      let value := fun (i h : Nat) => fieldInt r.fields (4 * i + 2 * h) 2
      let stored := fun (v : Int) => if v = -32768 then none else some (max (-2000) (min 2000 v))
      let size := w.last - w.first + 1
      let cursorAfter := fun i : Nat => w.first + (w.cursor - w.first + i) % size
      let clamped : Prop := ∃ i h, i < n ∧ h < 2 ∧ value i h ≠ -32768 ∧ (value i h < -2000 ∨ 2000 < value i h)
      ∃ entries code, exec .corrData s = .next (replied s { found s.part r rest with corr := { s.part.corr with
          entries := entries, window := some { w with cursor := cursorAfter n } } } r code (writeInt 2 (cursorAfter n))) ∧
        (clamped → code = 1) ∧ (¬ clamped → code = 0) ∧
        (∀ i, i < n → (∀ j, i < j → j < n → cursorAfter j ≠ cursorAfter i) →
          entryAt entries (cursorAfter i) = { lateral := stored (value i 0), vertical := stored (value i 1) }) ∧
        (∀ k, (∀ i, i < n → cursorAfter i ≠ k) → entryAt entries k = entryAt s.part.corr.entries k))

/-- R97: the look-up on the grid: the value of an entry at its own chainage, the interpolated value between two set entries,
which lies between theirs, and in every other case `none`, which stands for the value 0 with the flag uncorrected. -/
def Obligations.LookUpsInterpolate : Prop :=
  ∀ (c : Corrections) (half : CorrEntry → Option Int) (x : Int), 1000 ≤ c.spacing →
    let at_ := fun (k : Int) => if 0 ≤ k ∧ k ≤ 255 then half (entryAt c.entries k.toNat) else none
    let i := Int.fdiv (x - c.base) c.spacing
    let rem := x - c.base - i * c.spacing
    0 ≤ rem ∧ rem < c.spacing ∧
    (at_ i = none → lookUp c half x = none) ∧
    (rem = 0 → lookUp c half x = at_ i) ∧
    (rem ≠ 0 → at_ (i + 1) = none → lookUp c half x = none) ∧
    (∀ v w, rem ≠ 0 → at_ i = some v → at_ (i + 1) = some w →
      lookUp c half x = some (v + roundDiv ((w - v) * rem) c.spacing) ∧
      min v w ≤ v + roundDiv ((w - v) * rem) c.spacing ∧ v + roundDiv ((w - v) * rem) c.spacing ≤ max v w)

/-- R106, R107: TRIM SET takes every value of its field, answering CLAMPED for one beyond an end of −40..+40; TRIM UP and TRIM
DOWN move the trim by one step, and stay at an end with CLAMPED. -/
def Obligations.TrimSetUpAndDown : Prop :=
  (∀ s r rest, AsksControl s r rest 28 → r.fieldLength = 1 →
    let v := fieldInt r.fields 0 1
    (-128 ≤ v ∧ v ≤ 127) ∧
    (-40 ≤ v → v ≤ 40 →
      exec .trimSet s = .next (replied s { found s.part r rest with trim := v } r 0 (writeInt 1 v))) ∧
    (v < -40 → exec .trimSet s = .next (replied s { found s.part r rest with trim := -40 } r 1 (writeInt 1 (-40)))) ∧
    (40 < v → exec .trimSet s = .next (replied s { found s.part r rest with trim := 40 } r 1 (writeInt 1 40)))) ∧
  ((∀ s r rest, AsksControl s r rest 29 → r.fieldLength = 0 → TrimLegal s.part →
    (s.part.trim < 40 → exec .trimUp s =
      .next (replied s { found s.part r rest with trim := s.part.trim + 1 } r 0 (writeInt 1 (s.part.trim + 1)))) ∧
    (s.part.trim = 40 → exec .trimUp s = .next (replied s (found s.part r rest) r 1 (writeInt 1 40)))) ∧
  (∀ s r rest, AsksControl s r rest 30 → r.fieldLength = 0 → TrimLegal s.part →
    (-40 < s.part.trim → exec .trimDown s =
      .next (replied s { found s.part r rest with trim := s.part.trim - 1 } r 0 (writeInt 1 (s.part.trim - 1)))) ∧
    (s.part.trim = -40 → exec .trimDown s = .next (replied s (found s.part r rest) r 1 (writeInt 1 (-40))))))

/-! ### Target computation -/

/-- R98, R112, R116, R117: what a computation takes at the cycle start: the settings, the trim and both geometry answers as they
stand, the lateral correction at A and the vertical one at Av, the measurement means of LN, LVL, LVR and XL with their
saturation flags, and the shift of the nearest record below the one in cycle that has targets, or none. R114 to R127: the lining
shift is the measured versine less the design versine less the front term, held within one step of the previous shift when there
is one, and then within the lining limit, each flag saying that its limit acted; a saturated LN gives 0 and LN_FAULT alone. The
reference rail is lifted by its measured versine, the design versine and the front term, and the other rail by the cant error
more; both sensors gone, both lifts are the effective base; every lift is clamped to 0..max lift with its flag; and an auxiliary
lift is present exactly with a diverging part. HELD_H and HELD_V say that an answer is held at an end of its segment (R113). -/
def Obligations.TargetsAreLimitedAndFollowTheReferenceRail : Prop :=
  (∀ (p : Part) (n : Nat),
    let i := targetInputs p n
    let sign : Int := match p.travel.direction with | .ascending => 1 | .descending => -1
    let rs := p.queue.records
    i.settings = p.store.working ∧ i.trim = p.trim ∧ (i.modeH, i.geoH) = answerH p ∧ (i.modeV, i.geoV) = answerV p ∧
    i.fA = lookUp p.corr (·.lateral) (chainageC p + sign * p.store.working.a) ∧
    i.fAv = lookUp p.corr (·.vertical) (chainageC p + sign * p.store.working.av) ∧
    i.m = measurementMean p .ln ∧ i.lnSaturated = saturated p .ln ∧
    i.mvL = measurementMean p .lvl ∧ i.lvlSaturated = saturated p .lvl ∧
    i.mvR = measurementMean p .lvr ∧ i.lvrSaturated = saturated p .lvr ∧
    i.xm = measurementMean p .xl ∧ i.xlSaturated = saturated p .xl ∧
    (rs.Pairwise (fun x y => x.number < y.number) →
      ((∀ r ∈ rs, r.number < n → r.targets = none) → i.previous = none) ∧
      (∀ r t, r ∈ rs → r.number < n → r.targets = some t →
        (∀ x ∈ rs, r.number < x.number → x.number < n → x.targets = none) → i.previous = some t.shift))) ∧
  (∀ i : TargetInputs,
    let st := i.settings
    let t := computeTargets i
    let design := match i.geoH with
      | none => 0
      | some g =>
        let dk := g.curvatureEnd - g.curvatureStart
        roundDiv (st.a * st.b * (3 * (g.curvatureStart * g.length + dk * g.u) + dk * (st.a - st.b)))
          (6 * g.length * 10 ^ 8)
    let raw := i.m - design - roundDiv (i.fA.getD 0 * st.b) (st.a + st.b)
    (i.lnSaturated = true → t.shift = 0 ∧ t.flags.lnFault = true ∧ t.flags.stepLimit = false ∧ t.flags.lineLimit = false) ∧
    (i.lnSaturated = false → t.flags.lnFault = false ∧ ∃ s1,
      (i.previous = none → s1 = raw) ∧
      (∀ prev, i.previous = some prev → 0 ≤ st.stepLimit →
        s1 = max (prev - st.stepLimit) (min (prev + st.stepLimit) raw)) ∧
      (t.flags.stepLimit = true ↔ s1 ≠ raw) ∧
      (0 ≤ st.liningLimit → t.shift = max (-st.liningLimit) (min st.liningLimit s1)) ∧
      (t.flags.lineLimit = true ↔ t.shift ≠ s1))) ∧
  (∀ i : TargetInputs, 0 ≤ i.settings.maxLift →
    let st := i.settings
    let t := computeTargets i
    let clamp := fun x : Int => max 0 (min st.maxLift x)
    let cant := match i.geoH with
      | none => 0
      | some g => g.cantStart + roundDiv ((g.cantEnd - g.cantStart) * g.u) g.length
    let baseLift := match i.geoV with | none => 0 | some g => g.baseLift
    let curvature := match i.geoV with | none => 0 | some g => g.curvature
    let base := max 0 (min 1500 (baseLift + 5 * i.trim))
    let dv := roundDiv (st.av * st.bv * curvature) (2 * 10 ^ 8)
    let tv := roundDiv ((base - i.fAv.getD 0) * st.bv) (st.av + st.bv)
    let k := if i.xlSaturated then 0 else cant - i.xm
    let wantsLeft : Prop := ∀ g, i.geoH = some g → g.reference = .left ∨ (g.reference = .low ∧ 0 ≤ cant)
    let left := i.mvL - dv + tv
    let right := i.mvR - dv + tv
    let lifts := fun (l r : Int) => t.liftL = clamp l ∧ t.liftR = clamp r ∧
      (t.flags.lowSpotL = true ↔ l < 0) ∧ (t.flags.liftLimitL = true ↔ st.maxLift < l) ∧
      (t.flags.lowSpotR = true ↔ r < 0) ∧ (t.flags.liftLimitR = true ↔ st.maxLift < r)
    (i.lvlSaturated = true → i.lvrSaturated = true →
      lifts base base ∧ t.flags.levelFault = true ∧ t.flags.refSwapped = false) ∧
    (i.lvlSaturated = false → i.lvrSaturated = false → t.flags.refSwapped = false ∧ t.flags.levelFault = false ∧
      (wantsLeft → lifts left (left + k)) ∧ (¬ wantsLeft → lifts (right - k) right)) ∧
    (i.lvlSaturated = true → i.lvrSaturated = false →
      lifts (right - k) right ∧ t.flags.levelFault = false ∧ (t.flags.refSwapped = true ↔ wantsLeft)) ∧
    (i.lvlSaturated = false → i.lvrSaturated = true →
      lifts left (left + k) ∧ t.flags.levelFault = false ∧ (t.flags.refSwapped = true ↔ ¬ wantsLeft)) ∧
    (t.flags.xlFault = i.xlSaturated ∧ (t.flags.uncorrectedH = true ↔ i.fA = none) ∧
      (t.flags.uncorrectedV = true ↔ i.fAv = none) ∧ (t.flags.noPlanH = true ↔ i.geoH = none) ∧
      (t.flags.noPlanV = true ↔ i.geoV = none) ∧
      (t.flags.heldH = true ↔ i.modeH = .holdEnd ∨ i.modeH = .holdStart) ∧
      (t.flags.heldV = true ↔ i.modeV = .holdEnd ∨ i.modeV = .holdStart)) ∧
    ((∀ g, i.geoH = some g → g.diverging = none) → t.aux = none ∧ t.flags.lowSpotAux = false ∧ t.flags.liftLimitAux = false) ∧
    (∀ g x y, i.geoH = some g → g.diverging = some (x, y) →
      let offset := x + roundDiv ((y - x) * g.u) g.length
      let a := t.liftL + roundDiv ((t.liftR - t.liftL) * offset) st.span
      t.aux = some (clamp a) ∧ (t.flags.lowSpotAux = true ↔ a < 0) ∧ (t.flags.liftLimitAux = true ↔ st.maxLift < a)))

/-! ### The lift and lining drive -/

/-- R132 to R139: MOVE START with the line released, no axis started and no release running: every axis that has a target takes
its start reading, its target reading, its gain and tolerance and its timer, and stands SETTLED within the tolerance and
MOVING with its demand outside it; POSITIONED at once when all have settled. A sample of its channel gives a MOVING or SETTLED
axis a control update from its drive value, which sees the new sample; and a POSITIONED is handed on when the axis enters
SETTLED or SHORT and every started axis is then so. R132, R141, R145: a MOVE START is not taken while the line is asserted, starts
nothing while an axis is started outside a release, and cuts a release short; RELEASE holds every started axis, opens the clamp
and starts the release timer, and changes nothing with no axis started or during a release. -/
def Obligations.MoveStartAndSamplesDriveTheAxes : Prop :=
  (∀ (p : Part) (t : Targets), p.lines.estop = false → p.drive.releaseTimer = none →
    (∀ x, (p.drive.axes.get x).started = false) →
    let st := p.store.working
    let q := (moveStart p t).1
    let axis := fun (x : Axis) (ch : Channel) (travel gain : Int) =>
      let a := q.drive.axes.get x
      a.started = true ∧ a.startReading = some (driveValue p ch) ∧ a.gain = some gain ∧
      a.tolerance = some st.settleTolerance ∧ a.timer = .running st.moveTimeout ∧
      a.target = some (if x = .aux then driveValue p ch + travel else driveValue p ch - travel) ∧
      ((travel.natAbs : Int) ≤ st.settleTolerance → a.phase = .settled ∧ a.demand = 0) ∧
      (st.settleTolerance < (travel.natAbs : Int) → a.phase = .moving ∧
        a.demand = if x = .line then max (-100) (min 100 (roundDiv (gain * travel) 10))
                   else max 0 (min 100 (roundDiv (gain * travel) 10)))
    axis .line .ln t.shift st.gainLine ∧ axis .liftL .lvl t.liftL st.gainLiftL ∧ axis .liftR .lvr t.liftR st.gainLiftR ∧
    (∀ a, t.aux = some a → axis .aux .axs a st.gainAux) ∧ (t.aux = none → q.drive.axes.get .aux = .rest) ∧
    q = { p with drive := { p.drive with axes := q.drive.axes } } ∧
    ((moveStart p t).2 = true ↔ (t.shift.natAbs : Int) ≤ st.settleTolerance ∧ (t.liftL.natAbs : Int) ≤ st.settleTolerance ∧
      (t.liftR.natAbs : Int) ≤ st.settleTolerance ∧ ∀ a, t.aux = some a → (a.natAbs : Int) ≤ st.settleTolerance)) ∧
  (∀ (s : State) (x : Axis) (level : Int), s.part.powered = true → s.part.phase = .ready →
    let ch := axisChannel x
    let p := recordSample s.part ch level
    let a := p.drive.axes.get x
    ∀ target gain tolerance, a.started = true → a.phase = .moving ∨ a.phase = .settled → a.target = some target →
      a.gain = some gain → a.tolerance = some tolerance →
      let error := if x = .aux then target - driveValue p ch else driveValue p ch - target
      let b : AxisState :=
        if (error.natAbs : Int) ≤ tolerance then { a with phase := .settled, demand := 0 }
        else if a.phase = .settled ∧ a.timer = .expired then { a with phase := .short, demand := 0 }
        else { a with phase := .moving,
                      demand := if x = .line then max (-100) (min 100 (roundDiv (gain * error) 10))
                                else max 0 (min 100 (roundDiv (gain * error) 10)) }
      let q : Part := { p with drive := { p.drive with axes := p.drive.axes.set x b } }
      let done := fun y => (q.drive.axes.get y).started = false ∨ (q.drive.axes.get y).phase = .settled ∨
        (q.drive.axes.get y).phase = .short
      (b.phase ≠ a.phase → (∀ y, done y) → exec (.channelSample ch level) s = .next (s.withPart (positioned q))) ∧
      (b.phase = a.phase ∨ (∃ y, ¬ done y) → exec (.channelSample ch level) s = .next (s.withPart q))) ∧
  (∀ (p : Part) (t : Targets),
    (p.lines.estop = true → moveStart p t = (p, false)) ∧
    (p.lines.estop = false → p.drive.releaseTimer = none → (∃ x, (p.drive.axes.get x).started = true) →
      moveStart p t = (p, false)) ∧
    (p.lines.estop = false → p.drive.releaseTimer ≠ none → moveStart p t = moveStart { p with drive :=
      { axes := ⟨.rest, .rest, .rest, .rest⟩, clampEngaged := p.drive.clampEngaged, releaseTimer := none } } t)) ∧
  (∀ p : Part,
    (p.drive.releaseTimer = none → (∃ x, (p.drive.axes.get x).started = true) → releaseDrive p = { p with drive :=
      { axes := p.drive.axes.map fun a => if a.started then { a with phase := .held, demand := 0, timer := .stopped } else a
        clampEngaged := false
        releaseTimer := some p.store.working.releaseTime } }) ∧
    (p.drive.releaseTimer ≠ none ∨ (∀ x, (p.drive.axes.get x).started = false) → releaseDrive p = p))

/-- R138, R139, R142, R143, R160, R161: the timers of the drive. A move timer's expiry ends a MOVING axis SHORT and leaves any
other as it is, with the timer expired; the end of the release gives a residual for each started axis and leaves every axis
at rest, and completes the record of a cycle in RELEASING. With the cycle's end no stop stays requested (log entry 13); an end of
the release without a release timer changes nothing (log entry 1). -/
def Obligations.TheDriveTimersEndMovesAndReleases : Prop :=
  (∀ (s : State) (x : Axis) (ms : Int), s.part.powered = true → (s.part.drive.axes.get x).timer = .running ms →
    let p := s.part
    let a := p.drive.axes.get x
    let q := fun (b : AxisState) => { p with drive := { p.drive with axes := p.drive.axes.set x b } }
    let short : AxisState := { a with phase := .short, demand := 0, timer := .expired }
    let done := fun (y : Axis) => y = x ∨ (p.drive.axes.get y).started = false ∨ (p.drive.axes.get y).phase = .settled ∨
      (p.drive.axes.get y).phase = .short
    (a.phase ≠ .moving → exec (.moveTimerExpiry x) s = .next (s.withPart (q { a with timer := .expired }))) ∧
    (a.phase = .moving → a.started = true → (∀ y, done y) →
      exec (.moveTimerExpiry x) s = .next (s.withPart (positioned (q short)))) ∧
    (a.phase = .moving → (∃ y, ¬ done y) → exec (.moveTimerExpiry x) s = .next (s.withPart (q short)))) ∧
  (∀ s : State, s.part.powered = true →
    let p := s.part
    let rested : Part := { p with drive := { axes := ⟨.rest, .rest, .rest, .rest⟩, clampEngaged := p.drive.clampEngaged,
                                             releaseTimer := none } }
    let residual := fun (x : Axis) => if (p.drive.axes.get x).started then
      some (driveValue p (axisChannel x) - (p.drive.axes.get x).target.getD 0) else none
    (p.drive.releaseTimer = none → exec .releaseTimerExpiry s = .next s) ∧
    (p.drive.releaseTimer ≠ none → p.cycle.phase ≠ .releasing → exec .releaseTimerExpiry s = .next (s.withPart rested)) ∧
    (∀ n, p.drive.releaseTimer ≠ none → p.cycle.phase = .releasing → p.cycle.current = some n →
      let result : CycleResult :=
        { residuals := ⟨residual .line, residual .liftL, residual .liftR, residual .aux⟩
          depths := ⟨p.cycle.units.lo.depthReached, p.cycle.units.li.depthReached, p.cycle.units.ri.depthReached,
                     p.cycle.units.ro.depthReached⟩
          insertionsDone := p.cycle.insertionsDone
          unitFlags := ⟨p.cycle.units.lo.flags, p.cycle.units.li.flags, p.cycle.units.ri.flags, p.cycle.units.ro.flags⟩ }
      let ended := fun (r : SleeperRecord) => { r with
        state := if p.cycle.stopRequested = .none then .tamped else .failed
        failure := match p.cycle.stopRequested with
          | .none => none | .stopped => some .stopped | .travelFault => some .travelFault
        reported := false
        result := some result }
      let q := testStopPoint { rested with queue := { p.queue with
        aside := none, records := p.queue.records.map fun r => if r.number = n then ended r else r } }
      exec .releaseTimerExpiry s = .next (s.withPart { q with cycle := { p.cycle with
        phase := .idle, current := none, values := none, stopRequested := .none } })))

/-! ### The cycle controller -/

/-- R150 to R154, R39, R109, R129, R132: in AUTO mode a start event starts a cycle on the record in position when it may start,
is PENDING and has no skip, and otherwise does nothing, as it does in MANUAL mode; MODE SET AUTO is a start event, MODE SET
MANUAL is not; CYCLE START starts one in MANUAL mode and is otherwise refused. At a start the record goes IN_CYCLE with its
targets and one more tamp, what it was is kept aside (the targets are computed from what the part holds before the start), the
controller takes the cycle values and goes to POSITIONING, the stop point is tested, and MOVE START is given, whose POSITIONED,
if it comes at once, is the first. The reports that the request hands on stand ahead of its reply (log entries 8 and 29). -/
def Obligations.CyclesStartOnTheRecordInPosition : Prop :=
  ((∀ p : Part,
    (p.cycle.mode = .manual → startEvent p = p) ∧
    (∀ r, p.cycle.mode = .auto → MayStart p r → r.state = .pending → r.candidate.skip = none →
      startEvent p = startCycle p r) ∧
    ((∀ r, MayStart p r → r.state ≠ .pending ∨ r.candidate.skip ≠ none) → startEvent p = p)) ∧
  (∀ s r rest, AsksControl s r rest 40 → r.fieldLength = 1 →
    let code := fieldNat r.fields 0 1
    let p := found s.part r rest
    (2 ≤ code → exec .modeSet s = .next (refusedWith s r rest 4)) ∧
    (code = 0 → exec .modeSet s = .next (replied s { p with cycle := { p.cycle with mode := .manual } } r 0 [])) ∧
    (code = 1 →
      exec .modeSet s = .next (replied s (startEvent { p with cycle := { p.cycle with mode := .auto } }) r 0 []))) ∧
  (∀ s r rest, AsksControl s r rest 41 → r.fieldLength = 0 →
    let p := found s.part r rest
    (p.cycle.phase ≠ .idle → exec .cycleStart s = .next (refusedWith s r rest 2)) ∧
    (p.cycle.phase = .idle → p.cycle.mode = .auto ∨ (∀ x, ¬ MayStart p x) →
      exec .cycleStart s = .next (refusedWith s r rest 3)) ∧
    (∀ x, p.cycle.mode = .manual → MayStart p x →
      exec .cycleStart s = .next (replied s (startCycle p x) r 0 (writeInt 4 x.number))))) ∧
  (∀ (p : Part) (r : SleeperRecord), MayStart p r → p.queue.records.Pairwise (fun x y => x.number < y.number) →
    let st := p.store.working
    let t := computeTargets (targetInputs p r.number)
    let undecided : UnitState := { role := .undecided, atDepth := false, squeezeEnded := false, clear := false,
                                   depthReached := 0, flags := ⟨false, false, false, false⟩ }
    let q := testStopPoint { p with
      queue := { p.queue with
        aside := some { state := r.state, tampCount := r.tampCount, reported := r.reported, failure := r.failure }
        records := p.queue.records.map fun x => if x.number = r.number then
          { r with state := .inCycle, reported := false, failure := none, tampCount := min 15 (r.tampCount + 1),
                   targets := some t } else x }
      cycle := { p.cycle with
        phase := .positioning, current := some r.number
        values := some { insertions := r.candidate.insertions, depth := st.penetrationDepth,
                         threshold := st.squeezeThreshold, squeezeTime := st.squeezeTime,
                         foldSet := r.candidate.foldSet }
        insertionsDone := 0, penetrationBegun := false, stopRequested := .none, folding := .notBegun
        units := ⟨undecided, undecided, undecided, undecided⟩ } }
    startCycle p r = if (moveStart q t).2 then positioned (moveStart q t).1 else (moveStart q t).1)

/-- R155, R156, R147: the first POSITIONED gives HOLD and begins the folding step; FOLD_CONFIRM and FOLD_TIMEOUT end it: each
awaited unit that confirms becomes LOWERED, the others FOLD_FAULT at the timeout; and with no unit awaited, at the HOLD already
or later, the cycle goes to PENETRATING with a LOWERED unit, and to RELEASING without one. A FOLD_TIMEOUT without a running fold
timer changes nothing (log entry 1). -/
def Obligations.FoldingDecidesTheRoles : Prop :=
  ∀ s : State, s.part.powered = true →
    let agrees := fun (p : Part) (x : Arm) => p.lines.folds.get x = p.cycle.fold.get x
    let confirms := fun (p : Part) (u : TampUnit) => agrees p (armsOf u).1 ∧ agrees p (armsOf u).2
    let ended := fun (q : Part) => { q with cycle := { q.cycle with folding := .ended, phaseTimer := none } }
    (∀ arm folded,
      let p : Part := { s.part with lines := { s.part.lines with folds := s.part.lines.folds.set arm folded } }
      (p.cycle.phase ≠ .positioning ∨ p.cycle.folding ≠ .inProgress →
        exec (.foldConfirm arm folded) s = .next (s.withPart p)) ∧
      (∀ units : PerUnit UnitState, p.cycle.phase = .positioning → p.cycle.folding = .inProgress →
        (∀ u, units.get u = if (p.cycle.units.get u).role = .undecided ∧ confirms p u then
          { p.cycle.units.get u with role := .lowered } else p.cycle.units.get u) →
        let q : Part := { p with cycle := { p.cycle with units := units } }
        ((∃ u, (units.get u).role = .undecided) → exec (.foldConfirm arm folded) s = .next (s.withPart q)) ∧
        ((∀ u, (units.get u).role ≠ .undecided) → (∃ u, (units.get u).role = .lowered) →
          exec (.foldConfirm arm folded) s = .next (s.withPart (enterPenetrating (ended q)))) ∧
        ((∀ u, (units.get u).role ≠ .undecided) → (∀ u, (units.get u).role ≠ .lowered) →
          exec (.foldConfirm arm folded) s = .next (s.withPart (enterReleasing (ended q)))))) ∧
    (∀ units : PerUnit UnitState, s.part.cycle.phase = .positioning → s.part.cycle.folding = .inProgress →
      s.part.cycle.phaseTimer = some .fold →
      (∀ u, ((s.part.cycle.units.get u).role = .undecided → units.get u =
          { s.part.cycle.units.get u with
            role := .foldFault, flags := { (s.part.cycle.units.get u).flags with foldFault := true } }) ∧
        ((s.part.cycle.units.get u).role ≠ .undecided → units.get u = s.part.cycle.units.get u)) →
      let q : Part := { s.part with cycle := { s.part.cycle with units := units } }
      ((∃ u, (units.get u).role = .lowered) → exec .foldTimeout s = .next (s.withPart (enterPenetrating (ended q)))) ∧
      ((∀ u, (units.get u).role ≠ .lowered) → exec .foldTimeout s = .next (s.withPart (enterReleasing (ended q))))) ∧
    (s.part.cycle.phaseTimer ≠ some .fold → exec .foldTimeout s = .next s) ∧
    (∀ p : Part, p.cycle.phase ≠ .positioning ∨ p.cycle.folding ≠ .notBegun → positioned p = p) ∧
    (∀ (p : Part) (v : CycleValues) (units : PerUnit UnitState), p.cycle.phase = .positioning →
      p.cycle.folding = .notBegun → p.lines.estop = false → p.drive.releaseTimer = none →
      (∃ x, (p.drive.axes.get x).started = true) → p.cycle.values = some v →
      (∀ u, (p.cycle.units.get u).role = .undecided) →
      let inSet := fun (u : TampUnit) => v.foldSet.get (armsOf u).1 = true ∧ v.foldSet.get (armsOf u).2 = true
      let reads := fun (u : TampUnit) => p.lines.folds.get (armsOf u).1 = v.foldSet.get (armsOf u).1 ∧
        p.lines.folds.get (armsOf u).2 = v.foldSet.get (armsOf u).2
      (∀ u, (inSet u → units.get u = { p.cycle.units.get u with
          role := .folded, flags := { (p.cycle.units.get u).flags with folded := true } }) ∧
        (¬ inSet u → reads u → units.get u = { p.cycle.units.get u with role := .lowered }) ∧
        (¬ inSet u → ¬ reads u → units.get u = p.cycle.units.get u)) →
      let q : Part := { p with
        drive := { p.drive with
          clampEngaged := true
          axes := p.drive.axes.map fun a =>
            if a.started then { a with phase := .held, demand := 0, timer := .stopped } else a }
        cycle := { p.cycle with
          folding := .inProgress, fold := v.foldSet, phaseTimer := some .fold, units := units } }
      ((∃ u, ¬ inSet u ∧ ¬ reads u) → positioned p = q) ∧
      ((∀ u, inSet u ∨ reads u) → (∃ u, ¬ inSet u) → positioned p = enterPenetrating (ended q)) ∧
      ((∀ u, inSet u) → positioned p = enterReleasing (ended q)))

/-- R157, R158, R159: the phases of an insertion. Entering PENETRATING lowers each LOWERED unit that is not yet at depth, and
with every one at depth goes on to SQUEEZING at once; PENETRATION_TIMEOUT gives PEN_SHORT to those still short and goes on to
SQUEEZING, which records the depths and turns the squeezes ON, but for a side that stands at the threshold already, whose
squeezes end at the entry; SQUEEZE_TIMER_EXPIRY ends the squeezes that have not ended, with SQUEEZE_TIMED; and with the last
squeeze ended the insertion is counted and the cycle goes on to RAISING, which raises every unit below the clear height. The
timers' commands change nothing when their timer does not run (log entry 1). Entering RAISING marks no unit clear (log entry
32). -/
def Obligations.AnInsertionGoesThroughItsPhases : Prop :=
  (∀ (p : Part) (v : CycleValues) (units : PerUnit UnitState) (vertical : PerUnit Vertical), p.cycle.values = some v →
    let low := fun u => (p.cycle.units.get u).role = .lowered
    let deep := fun u => v.depth - 100 ≤ unitDepth p u
    (∃ u, low u ∧ ¬ deep u) →
    (∀ u, (low u → deep u → units.get u =
          { p.cycle.units.get u with atDepth := true, squeezeEnded := false, clear := false } ∧ vertical.get u = .rest) ∧
      (low u → ¬ deep u → units.get u =
          { p.cycle.units.get u with atDepth := false, squeezeEnded := false, clear := false } ∧ vertical.get u = .lower) ∧
      (¬ low u → units.get u = { p.cycle.units.get u with atDepth := false, squeezeEnded := false, clear := false } ∧
        vertical.get u = p.cycle.vertical.get u)) →
    enterPenetrating p = { p with cycle := { p.cycle with
      phase := .penetrating, penetrationBegun := true, phaseTimer := some .penetration, units := units
      vertical := vertical } }) ∧
  (∀ (p : Part) (v : CycleValues) (units : PerUnit UnitState) (vertical : PerUnit Vertical), p.cycle.values = some v →
    let low := fun u => (p.cycle.units.get u).role = .lowered
    (∀ u, low u → v.depth - 100 ≤ unitDepth p u) →
    (∀ u, (low u → units.get u =
          { p.cycle.units.get u with atDepth := true, squeezeEnded := false, clear := false } ∧ vertical.get u = .rest) ∧
      (¬ low u → units.get u = { p.cycle.units.get u with atDepth := false, squeezeEnded := false, clear := false } ∧
        vertical.get u = p.cycle.vertical.get u)) →
    enterPenetrating p = enterSqueezing { p with cycle := { p.cycle with
      phase := .penetrating, penetrationBegun := true, phaseTimer := some .penetration, units := units
      vertical := vertical } }) ∧
  (∀ (s : State) (units : PerUnit UnitState) (vertical : PerUnit Vertical), s.part.powered = true →
    let p := s.part
    (p.cycle.phase ≠ .penetrating ∨ p.cycle.phaseTimer ≠ some .penetration → exec .penetrationTimeout s = .next s) ∧
    (p.cycle.phase = .penetrating → p.cycle.phaseTimer = some .penetration →
      (∀ u, let old := p.cycle.units.get u
        if old.role = .lowered ∧ old.atDepth = false then
          units.get u = { old with flags := { old.flags with penShort := true } } ∧ vertical.get u = .rest
        else units.get u = old ∧ vertical.get u = p.cycle.vertical.get u) →
      exec .penetrationTimeout s = .next (s.withPart
        (enterSqueezing { p with cycle := { p.cycle with units := units, vertical := vertical } })))) ∧
  (∀ (p : Part) (v : CycleValues) (units : PerUnit UnitState) (squeeze : PerUnit Bool), p.cycle.values = some v →
    let low := fun u => (p.cycle.units.get u).role = .lowered
    let full := fun u => v.threshold ≤ driveValue p (pressureChannel u)
    (∃ u, low u) → (∀ u, low u → (p.cycle.units.get u).squeezeEnded = false) →
    (∀ u, (low u → ¬ full u → squeeze.get u = true ∧
          units.get u = { p.cycle.units.get u with depthReached := unitDepth p u }) ∧
      (low u → full u → squeeze.get u = false ∧
          units.get u = { p.cycle.units.get u with depthReached := unitDepth p u, squeezeEnded := true }) ∧
      (¬ low u → squeeze.get u = false ∧ units.get u = p.cycle.units.get u)) →
    let q : Part := { p with cycle := { p.cycle with
      phase := .squeezing, phaseTimer := some (.squeeze v.squeezeTime), units := units, squeeze := squeeze } }
    ((∃ u, low u ∧ ¬ full u) → enterSqueezing p = q) ∧
    ((∀ u, low u → full u) → GoesToRaising q (enterSqueezing p))) ∧
  (∀ (s : State) (ms : Int) (units : PerUnit UnitState), s.part.powered = true → s.part.cycle.phase = .squeezing →
    s.part.cycle.phaseTimer = some (.squeeze ms) →
    (∀ u, let old := s.part.cycle.units.get u
      (old.role = .lowered → old.squeezeEnded = false →
        units.get u = { old with squeezeEnded := true, flags := { old.flags with squeezeTimed := true } }) ∧
      (old.role ≠ .lowered ∨ old.squeezeEnded = true → units.get u = old)) →
    ∃ t, exec .squeezeTimerExpiry s = .next (s.withPart t) ∧
      GoesToRaising { s.part with cycle := { s.part.cycle with units := units } } t) ∧
  (∀ s : State, s.part.powered = true → s.part.cycle.phase ≠ .squeezing ∨ (∀ ms, s.part.cycle.phaseTimer ≠ some (.squeeze ms)) →
    exec .squeezeTimerExpiry s = .next s)

/-- R157 to R159, R147, R164, R167: what a sample of a depth or a pressure channel brings about in a cycle: a LOWERED unit comes
to depth, a side's squeeze ends at the threshold, a unit becomes clear; and the phase goes on when the last unit has. A sample
of a unit that is at depth already or is not LOWERED moves nothing in PENETRATING, wherever its depth then stands, nor does a
depth sample in SQUEEZING or a pressure sample outside it. In LOCKOUT a unit that becomes clear in the lockout raise has its
demand set to 0, and with every unit clear the lockout raise stops and the fold outputs become OFF. With every unit clear every
vertical demand becomes 0, in the raise and in LOCKOUT (log entry 13), and every unit is clear by the depths as they stand, not
by the marks (log entry 26). A sample in RAISING marks a unit that is clear, even one that was clear at the entry, which marks
none (log entry 32). -/
def Obligations.SamplesMoveTheCycleOn : Prop :=
  ∀ (s : State) (level : Int), s.part.powered = true → s.part.phase = .ready →
    (∀ u, let ch := depthChannel u
      let p := recordSample s.part ch level
      let a := p.cycle.units.get u
      (p.cycle.phase = .penetrating → a.role = .lowered → a.atDepth = false → ∀ v, p.cycle.values = some v →
        (unitDepth p u < v.depth - 100 → exec (.channelSample ch level) s = .next (s.withPart p)) ∧
        (v.depth - 100 ≤ unitDepth p u →
          let q : Part := { p with cycle := { p.cycle with
            units := p.cycle.units.set u { a with atDepth := true }, vertical := p.cycle.vertical.set u .rest } }
          ((∃ w, w ≠ u ∧ (p.cycle.units.get w).role = .lowered ∧ (p.cycle.units.get w).atDepth = false) →
            exec (.channelSample ch level) s = .next (s.withPart q)) ∧
          ((∀ w, w ≠ u → (p.cycle.units.get w).role = .lowered → (p.cycle.units.get w).atDepth = true) →
            exec (.channelSample ch level) s = .next (s.withPart (enterSqueezing q))))) ∧
      (p.cycle.phase = .penetrating → a.role ≠ .lowered ∨ a.atDepth = true →
        ((∃ w, (p.cycle.units.get w).role = .lowered ∧ (p.cycle.units.get w).atDepth = false) →
          exec (.channelSample ch level) s = .next (s.withPart p)) ∧
        ((∀ w, (p.cycle.units.get w).role = .lowered → (p.cycle.units.get w).atDepth = true) →
          exec (.channelSample ch level) s = .next (s.withPart (enterSqueezing p)))) ∧
      (p.cycle.phase = .squeezing → exec (.channelSample ch level) s = .next (s.withPart p)) ∧
      (p.cycle.phase = .raising →
        (200 < unitDepth p u → exec (.channelSample ch level) s = .next (s.withPart p)) ∧
        (unitDepth p u ≤ 200 →
          let q : Part := { p with cycle := { p.cycle with
            units := p.cycle.units.set u { a with clear := true }, vertical := p.cycle.vertical.set u .rest } }
          ((∃ w, 200 < unitDepth p w) → exec (.channelSample ch level) s = .next (s.withPart q)) ∧
          ((∀ w, unitDepth p w ≤ 200) →
            let r : Part := { q with cycle := { q.cycle with phaseTimer := none, vertical := ⟨.rest, .rest, .rest, .rest⟩ } }
            (p.cycle.stopRequested = .none → (∃ v, p.cycle.values = some v ∧ p.cycle.insertionsDone < v.insertions) →
              exec (.channelSample ch level) s = .next (s.withPart (enterPenetrating r))) ∧
            (p.cycle.stopRequested ≠ .none ∨ (∀ v, p.cycle.values = some v → v.insertions ≤ p.cycle.insertionsDone) →
              exec (.channelSample ch level) s = .next (s.withPart (enterReleasing r)))))) ∧
      (p.cycle.phase = .lockout →
        ((∃ w, 200 < unitDepth p w) →
          exec (.channelSample ch level) s = .next (s.withPart
            (if p.cycle.lockoutRaise = true ∧ unitDepth p u ≤ 200 then
              { p with cycle := { p.cycle with vertical := p.cycle.vertical.set u .rest } } else p))) ∧
        ((∀ w, unitDepth p w ≤ 200) →
          exec (.channelSample ch level) s = .next (s.withPart { p with cycle := { p.cycle with
            vertical := ⟨.rest, .rest, .rest, .rest⟩, lockoutRaise := false
            phaseTimer := if p.cycle.lockoutRaise then none else p.cycle.phaseTimer
            fold := ⟨false, false, false, false, false, false, false, false⟩ } })))) ∧
    (∀ ch, ch = .pl ∨ ch = .pr →
      let p := recordSample s.part ch level
      (p.cycle.phase ≠ .squeezing → exec (.channelSample ch level) s = .next (s.withPart p)) ∧
      ∀ v, p.cycle.phase = .squeezing → p.cycle.values = some v →
        let squeezed := fun u => (p.cycle.units.get u).role = .lowered ∧ (p.cycle.units.get u).squeezeEnded = false
        let ends := fun u => squeezed u ∧ pressureChannel u = ch
        ((∃ w, squeezed w) → driveValue p ch < v.threshold → exec (.channelSample ch level) s = .next (s.withPart p)) ∧
        (∀ (units : PerUnit UnitState) (squeeze : PerUnit Bool), v.threshold ≤ driveValue p ch →
          (∀ u, (ends u → squeeze.get u = false ∧ units.get u = { p.cycle.units.get u with squeezeEnded := true }) ∧
            (¬ ends u → squeeze.get u = p.cycle.squeeze.get u ∧ units.get u = p.cycle.units.get u)) →
          let q : Part := { p with cycle := { p.cycle with units := units, squeeze := squeeze } }
          ((∃ w, squeezed w ∧ pressureChannel w ≠ ch) → exec (.channelSample ch level) s = .next (s.withPart q)) ∧
          ((∃ w, ends w) → (∀ w, squeezed w → pressureChannel w = ch) →
            ∃ t, exec (.channelSample ch level) s = .next (s.withPart t) ∧ GoesToRaising q t)))

/-- R159, R164, R166, R167, R170: the raise timeouts. With a unit below the clear height the cycle locks out with UNIT_STUCK,
its record FAILED, every demand 0 and no stop requested any more (log entry 13); a lockout raise stops and adds UNIT_STUCK. With
every unit clear either is the end of the raise (log entry 15). A timeout whose timer does not run changes nothing (log
entry 1). -/
def Obligations.RaiseTimeoutsLockOut : Prop :=
  ∀ s : State, s.part.powered = true →
    let p := s.part
    let clear : Prop := ∀ u, unitDepth p u ≤ 200
    let rest : PerUnit Vertical := ⟨.rest, .rest, .rest, .rest⟩
    (p.cycle.phase ≠ .raising ∨ p.cycle.phaseTimer ≠ some .raise → exec .raiseTimeout s = .next s) ∧
    (∀ n, p.cycle.phase = .raising → p.cycle.phaseTimer = some .raise → p.cycle.current = some n → ¬ clear →
      let held : Part := { p with cycle := { p.cycle with
        squeeze := ⟨false, false, false, false⟩, phaseTimer := none, vertical := rest, lockoutRaise := false } }
      let failed := testStopPoint { releaseDrive held with queue := { p.queue with
        aside := none
        records := p.queue.records.map fun r =>
          if r.number = n then { r with state := .failed, failure := some .unitStuck, reported := false } else r } }
      let causes : CauseSet := { p.cycle.causes with unitStuck := true }
      exec .raiseTimeout s = .next (s.withPart (handEvent { failed with cycle := { held.cycle with
          phase := .lockout, causes := causes, current := none, values := none, stopRequested := .none } }
        (.lockout causes .unitStuck (some n))))) ∧
    (p.cycle.phase = .raising → p.cycle.phaseTimer = some .raise → clear →
      let r : Part := { p with cycle := { p.cycle with phaseTimer := none, vertical := rest } }
      (p.cycle.stopRequested = .none → (∃ v, p.cycle.values = some v ∧ p.cycle.insertionsDone < v.insertions) →
        exec .raiseTimeout s = .next (s.withPart (enterPenetrating r))) ∧
      (p.cycle.stopRequested ≠ .none ∨ (∀ v, p.cycle.values = some v → v.insertions ≤ p.cycle.insertionsDone) →
        exec .raiseTimeout s = .next (s.withPart (enterReleasing r)))) ∧
    (p.cycle.phase ≠ .lockout ∨ p.cycle.lockoutRaise = false ∨ p.cycle.phaseTimer ≠ some .raise →
      exec .lockoutRaiseTimeout s = .next s) ∧
    (p.cycle.phase = .lockout → p.cycle.lockoutRaise = true → p.cycle.phaseTimer = some .raise →
      let stopped : Cycle := { p.cycle with vertical := rest, lockoutRaise := false, phaseTimer := none }
      let causes : CauseSet := { p.cycle.causes with unitStuck := true }
      (clear → exec .lockoutRaiseTimeout s = .next (s.withPart { p with cycle := { stopped with
        fold := ⟨false, false, false, false, false, false, false, false⟩ } })) ∧
      (¬ clear → p.cycle.causes.unitStuck = true →
        exec .lockoutRaiseTimeout s = .next (s.withPart { p with cycle := stopped })) ∧
      (¬ clear → p.cycle.causes.unitStuck = false → exec .lockoutRaiseTimeout s = .next (s.withPart
        (handEvent { p with cycle := { stopped with causes := causes } } (.lockout causes .unitStuck none)))))

/-- R162, R39: CYCLE STOP is taken in every cycle state: it abandons a cycle in POSITIONING, which puts the record back as it
was kept aside and starts nothing (log entry 13); it sends a cycle in PENETRATING or SQUEEZING to RAISING; and a second stop,
like one in IDLE, RELEASING or LOCKOUT, changes nothing. In RAISING with TRAVEL_FAULT requested a CYCLE STOP changes nothing
either (log entry 33). Entering RAISING marks no unit clear (log entry 32). The reports that the request hands on stand ahead of
its reply (log entries 8 and 29). -/
def Obligations.CycleStopEndsTheCycle : Prop :=
  ∀ s r rest, AsksControl s r rest 42 → r.fieldLength = 0 →
    let p := found s.part r rest
    (p.cycle.phase ∈ [CyclePhase.idle, .releasing, .lockout] → exec .cycleStop s = .next (replied s p r 0 [])) ∧
    (p.cycle.phase ∈ [CyclePhase.penetrating, .squeezing, .raising] → p.cycle.stopRequested ≠ .none →
      exec .cycleStop s = .next (replied s p r 0 [])) ∧
    (p.cycle.phase = .raising → p.cycle.stopRequested = .none →
      exec .cycleStop s = .next (replied s { p with cycle := { p.cycle with stopRequested := .stopped } } r 0 [])) ∧
    (∀ u, p.cycle.phase = .penetrating ∨ p.cycle.phase = .squeezing → p.cycle.stopRequested = .none → 200 < unitDepth p u →
      ∃ vertical : PerUnit Vertical, (∀ w, vertical.get w = if unitDepth p w ≤ 200 then .rest else .raise) ∧
        exec .cycleStop s = .next (replied s { p with cycle := { p.cycle with
          stopRequested := .stopped, phase := .raising, squeeze := ⟨false, false, false, false⟩, phaseTimer := some .raise,
          vertical := vertical } } r 0 [])) ∧
    (p.cycle.phase = .penetrating ∨ p.cycle.phase = .squeezing → p.cycle.stopRequested = .none →
      (∀ u, unitDepth p u ≤ 200) →
      exec .cycleStop s = .next (replied s (enterReleasing { p with cycle := { p.cycle with
        stopRequested := .stopped, phase := .raising, squeeze := ⟨false, false, false, false⟩, phaseTimer := none,
        vertical := ⟨.rest, .rest, .rest, .rest⟩ } }) r 0 [])) ∧
    (∀ n k, p.cycle.phase = .positioning → p.cycle.current = some n → p.queue.aside = some k →
      let restored := testStopPoint { releaseDrive p with queue := { p.queue with
        aside := none
        records := trimHistory (p.queue.records.map fun x => if x.number = n then
          { x with state := k.state, tampCount := k.tampCount, reported := k.reported, failure := k.failure } else x) } }
      exec .cycleStop s = .next (replied s { restored with
        queue := { restored.queue with inPosition := (recordInPosition restored).map (·.number) }
        cycle := { p.cycle with phase := .idle, current := none, values := none, stopRequested := .none, phaseTimer := none,
                                fold := ⟨false, false, false, false, false, false, false, false⟩ } } r 0 []))

/-- R167, R168, R169: the requests of LOCKOUT. UNITS RAISE starts the lockout raise, or restarts its timer; FAULT CLEAR leaves
LOCKOUT once the line is released and every unit is clear, is taken in IDLE, and is a start event (R152) when taken. The reports
that the request hands on stand ahead of its reply (log entries 8 and 29). -/
def Obligations.UnitsRaiseAndFaultClear : Prop :=
  (∀ s r rest, AsksControl s r rest 43 → r.fieldLength = 0 →
    let p := found s.part r rest
    (p.cycle.phase ≠ .lockout ∨ p.lines.estop = true → exec .unitsRaise s = .next (refusedWith s r rest 3)) ∧
    (p.cycle.phase = .lockout → p.lines.estop = false → p.cycle.lockoutRaise = true →
      exec .unitsRaise s = .next (replied s { p with cycle := { p.cycle with phaseTimer := some .raise } } r 0 [])) ∧
    (∀ u, p.cycle.phase = .lockout → p.lines.estop = false → p.cycle.lockoutRaise = false → 200 < unitDepth p u →
      ∃ vertical : PerUnit Vertical, (∀ w, vertical.get w = if unitDepth p w ≤ 200 then .rest else .raise) ∧
        exec .unitsRaise s = .next (replied s { p with cycle := { p.cycle with
          lockoutRaise := true, phaseTimer := some .raise, vertical := vertical } } r 0 [])) ∧
    (p.cycle.phase = .lockout → p.lines.estop = false → p.cycle.lockoutRaise = false → (∀ u, unitDepth p u ≤ 200) →
      exec .unitsRaise s = .next (replied s { p with cycle := { p.cycle with
        lockoutRaise := false, phaseTimer := none, vertical := ⟨.rest, .rest, .rest, .rest⟩,
        fold := ⟨false, false, false, false, false, false, false, false⟩ } } r 0 []))) ∧
  (∀ s r rest, AsksControl s r rest 44 → r.fieldLength = 0 →
    let p := found s.part r rest
    (p.cycle.phase = .idle → exec .faultClear s = .next (replied s (startEvent p) r 0 [])) ∧
    (p.cycle.phase ∈ [CyclePhase.positioning, .penetrating, .squeezing, .raising, .releasing] →
      exec .faultClear s = .next (refusedWith s r rest 3)) ∧
    (p.cycle.phase = .lockout → p.lines.estop = true ∨ (∃ u, 200 < unitDepth p u) →
      exec .faultClear s = .next (refusedWith s r rest 3)) ∧
    (p.cycle.phase = .lockout → p.lines.estop = false → (∀ u, unitDepth p u ≤ 200) →
      exec .faultClear s = .next (replied s (startEvent { p with cycle := { p.cycle with
        phase := .idle, causes := ⟨false, false, false, false⟩, lockoutRaise := false, phaseTimer := none,
        vertical := ⟨.rest, .rest, .rest, .rest⟩,
        fold := ⟨false, false, false, false, false, false, false, false⟩ } }) r 0 [])))

/-- R39, R144, R148, R165, R166, R170: the emergency stop line. Its assertion puts every output and the drive at rest, fails the
record in cycle or puts it back as it was kept aside (with the record in position renewed, log entry 13), locks the cycle out
with ESTOP and leaves no stop requested (log entry 13). It hands on EVENT LOCKOUT with the causes as they then stand, ESTOP as
the cause added and the number of the record made FAILED or put back, none without one; with ESTOP already held in LOCKOUT
nothing is handed on (log entry 17). The release of the line changes nothing else, and an assertion of a line that is asserted
changes nothing (log entries 1 and 17); and no unit receives a lowering demand while it is asserted or the machine moves. -/
def Obligations.TheEmergencyStopRestsEverything : Prop :=
  (∀ s : State, s.part.powered = true → s.part.lines.estop = false → CycleLegal s.part → QueueLegal s.part →
    ∃ t, exec .emergencyStopAsserted s = .next t ∧ t.part.lines = { s.part.lines with estop := true } ∧
      t.part.cycle.phase = .lockout ∧ t.part.cycle.causes = { s.part.cycle.causes with estop := true } ∧
      t.part.cycle.current = none ∧ t.part.cycle.values = none ∧ t.part.cycle.phaseTimer = none ∧
      t.part.cycle.lockoutRaise = false ∧ t.part.cycle.mode = s.part.cycle.mode ∧
      (∀ u, t.part.cycle.vertical.get u = .rest ∧ t.part.cycle.squeeze.get u = false) ∧
      (∀ x, t.part.cycle.fold.get x = false) ∧ (∀ x, t.part.drive.axes.get x = .rest) ∧
      t.part.drive.clampEngaged = false ∧ t.part.drive.releaseTimer = none ∧ t.part.queue.aside = none ∧
      (∀ n, s.part.cycle.current = some n → s.part.cycle.penetrationBegun = true → ∀ r ∈ t.part.queue.records,
        r.number = n → r.state = .failed ∧ r.failure = some .estop ∧ r.reported = false) ∧
      (∀ n k, s.part.cycle.current = some n → s.part.cycle.penetrationBegun = false → s.part.queue.aside = some k →
        ∀ r ∈ t.part.queue.records, r.number = n → r.state = k.state ∧ r.failure = k.failure ∧ r.tampCount = k.tampCount ∧
          r.reported = k.reported) ∧
      (s.part.cycle.current = none → t.part.queue = s.part.queue) ∧ t.part.cycle.stopRequested = .none ∧
      t.part.travel = s.part.travel ∧ t.part.plan = s.part.plan ∧ t.part.store = s.part.store ∧
      t.part.scanner = s.part.scanner) ∧
  (∀ s : State, s.part.powered = true → s.part.lines.estop = false →
    let causes : CauseSet := { s.part.cycle.causes with estop := true }
    let p : Part := { s.part with
      lines := { s.part.lines with estop := true }
      drive := { axes := ⟨.rest, .rest, .rest, .rest⟩, clampEngaged := false, releaseTimer := none }
      cycle := { s.part.cycle with
        phaseTimer := none, lockoutRaise := false, vertical := ⟨.rest, .rest, .rest, .rest⟩
        squeeze := ⟨false, false, false, false⟩, fold := ⟨false, false, false, false, false, false, false, false⟩ } }
    let left : Cycle := { p.cycle with phase := .lockout, current := none, values := none, stopRequested := .none }
    let locksOut := fun (q : Part) (sleeper : Option Nat) => exec .emergencyStopAsserted s =
      .next (s.withPart (handEvent { q with cycle := { left with causes := causes } } (.lockout causes .estop sleeper)))
    (∀ n, p.cycle.phase ≠ .lockout → p.cycle.current = some n → p.cycle.penetrationBegun = true →
      locksOut (testStopPoint { p with queue := { p.queue with
        aside := none
        records := p.queue.records.map fun x => if x.number = n then
          { x with state := .failed, failure := some .estop, reported := false } else x } }) (some n)) ∧
    (∀ n k, p.cycle.phase ≠ .lockout → p.cycle.current = some n → p.cycle.penetrationBegun = false → p.queue.aside = some k →
      let restored := testStopPoint { p with queue := { p.queue with
        aside := none
        records := trimHistory (p.queue.records.map fun x => if x.number = n then
          { x with state := k.state, tampCount := k.tampCount, reported := k.reported, failure := k.failure } else x) } }
      locksOut { restored with
        queue := { restored.queue with inPosition := (recordInPosition restored).map (·.number) } } (some n)) ∧
    (p.cycle.current = none → p.cycle.phase ≠ .lockout ∨ p.cycle.causes.estop = false → locksOut p none) ∧
    (p.cycle.current = none → p.cycle.phase = .lockout → p.cycle.causes.estop = true →
      exec .emergencyStopAsserted s = .next (s.withPart { p with cycle := left }))) ∧
  (∀ s : State, s.part.powered = true → s.part.lines.estop = true → exec .emergencyStopAsserted s = .next s) ∧
  (∀ s : State, exec .emergencyStopReleased s =
    .next (s.withPart { s.part with lines := { s.part.lines with estop := false } })) ∧
  (∀ (p : Part) (u : TampUnit), (p.travel.motion = .moving ∨ p.lines.estop = true → verticalOutput p u ≤ 0) ∧
    (verticalOutput p u = 100 ↔ p.cycle.vertical.get u = .lower ∧ p.travel.motion = .standstill ∧ p.lines.estop = false) ∧
    (verticalOutput p u = -100 ↔ p.cycle.vertical.get u = .raise))

/-! ### The settings store -/

/-- R196, R197, R10, R11, R45, R181: SETTING WRITE and SETTING READ. A write is refused for an unknown number, a value that
would leave the record inconsistent, a save in progress, and the conditions on the pitch and the scanner offset; one that is
taken replaces the setting, and five settings have an effect of their own. The reports that the request hands on stand ahead of
its reply (log entries 8 and 29). -/
def Obligations.SettingsAreWrittenAndRead : Prop :=
  (∀ s r rest, AsksData s r rest 8 → r.fieldLength = 5 →
    let number := fieldNat r.fields 0 1
    let v := fieldInt r.fields 1 4
    let p := found s.part r rest
    let st := p.store.working
    let put := fun (q : Part) (new : Settings) => { q with store := { q.store with working := new } }
    let reply := byte number :: writeInt 4 v
    (settingOfNumber number = none → exec .settingWrite s = .next (refusedWith s r rest 4)) ∧
    ∀ id, settingOfNumber number = some id →
      let new := st.set id v
      (new.consistent = false → exec .settingWrite s = .next (refusedWith s r rest 4)) ∧
      (new.consistent = true → p.store.save ≠ none → exec .settingWrite s = .next (refusedWith s r rest 2)) ∧
      (new.consistent = true → p.store.save = none →
        (id = .pitch → p.travel.originState = .set → p.travel.motion = .moving ∨ p.cycle.phase ≠ .idle ∨
          p.ctxH.state ≠ .stopped ∨ p.ctxV.state ≠ .stopped → exec .settingWrite s = .next (refusedWith s r rest 2)) ∧
        (id = .scannerOffset → p.travel.originState = .set → p.travel.motion = .moving →
          exec .settingWrite s = .next (refusedWith s r rest 2)) ∧
        (id = .pitch → p.travel.originState = .set → p.travel.motion = .standstill → p.cycle.phase = .idle →
          p.ctxH.state = .stopped → p.ctxV.state = .stopped → exec .settingWrite s = .next (replied s
            (put { p with travel := { p.travel with origin := chainageC p, pulses := 0 } } new) r 0 reply)) ∧
        (∀ old, id = .scannerOffset → p.travel.originState = .set → p.travel.motion = .standstill →
          p.scanner.front = some old →
          let point := chainageC p + (match p.travel.direction with | .ascending => 1 | .descending => -1) * v
          exec .settingWrite s = .next (replied s { put p new with scanner := { p.scanner with
            active := true, window := [], phase := .seeking, guardSet := true, body := none,
            front := some (if 0 < aheadBy p.travel.direction point old then point else old) } } r 0 reply)) ∧
        (id = .positionTolerance → exec .settingWrite s = .next (replied s (renewAndStart (put p new)) r 0 reply)) ∧
        (id = .supervisorNode → v ≠ st.supervisorNode → exec .settingWrite s = .next (replied s
          { put p new with port := { p.port with authority := v } } r 0 reply)) ∧
        (id = .partNode → v ≠ st.partNode → p.port.authority = v → exec .settingWrite s = .next (replied s
          { put p new with port := { p.port with authority := st.supervisorNode } } r 0 reply)) ∧
        (id ∉ [SettingId.pitch, .scannerOffset, .positionTolerance, .supervisorNode, .partNode] ∨
          (p.travel.originState = .none ∧ (id = .pitch ∨ id = .scannerOffset)) ∨
          (id = .supervisorNode ∧ v = st.supervisorNode) ∨
          (id = .partNode ∧ (v = st.partNode ∨ p.port.authority ≠ v)) →
          exec .settingWrite s = .next (replied s (put p new) r 0 reply)))) ∧
  (∀ s r rest, AsksRead s r rest 9 → r.fieldLength = 1 →
    let number := fieldNat r.fields 0 1
    (settingOfNumber number = none → exec .settingRead s = .next (refusedWith s r rest 4)) ∧
    (∀ id, settingOfNumber number = some id → exec .settingRead s = .next (replied s (found s.part r rest) r 0
      (byte number :: writeInt 4 (s.part.store.working.get id)))))

/-- R198 to R202: STORE SAVE, its end with any copy read back (log entry 5), STORE LOAD of a copy that the part holds, and ZERO
CAPTURE, whose reply carries the zero in 4 bytes (log entry 22). A load that is taken brings with it what each changed setting
brings by its own rule: a changed pitch re-bases the travel counter when the origin is SET (R10), a changed scanner offset
resets the scanner with its front at the further ahead of the old front and the scanner point (R11), a changed position
tolerance renews the record in position, which can be a start event (R45, R46, R152), and the node numbers pass authority
(R181); the reports of the load are built from the part node as it stood (R181). An END_OF_SAVE without a save in progress
changes nothing (log entry 1). The reports that the request hands on stand ahead of its reply (log entries 8 and 29). -/
def Obligations.TheStoreSavesLoadsAndCaptures : Prop :=
  (∀ s r rest, AsksData s r rest 10 → r.fieldLength = 0 →
    let p := found s.part r rest
    (p.store.save ≠ none ∨ p.cycle.phase ≠ .idle → exec .storeSave s = .next (refusedWith s r rest 2)) ∧
    (p.store.save = none → p.cycle.phase = .idle → exec .storeSave s = .next (replied s { p with store := { p.store with
      save := some { words := p.store.working.toWords, checksum := checksumOf p.store.working.toWords },
      status := .saving } } r 0 []))) ∧
  (∀ (s : State) (readBack : NvCopy), s.part.powered = true →
    let p := s.part
    (p.store.save = none → exec (.endOfSave readBack) s = .next s) ∧
    (∀ snapshot, p.store.save = some snapshot →
      let ok := decide (readBack = snapshot)
      exec (.endOfSave readBack) s = .next (s.withPart (handEvent { p with store := { p.store with
        copy := readBack, save := none, status := if ok then .saved else .fault } } (.storeDone ok))))) ∧
  (∀ s r rest, AsksData s r rest 11 → r.fieldLength = 0 →
    let p := found s.part r rest
    let old := p.store.working
    let new := Settings.ofWords p.store.copy.words
    let stopped : Prop := p.travel.motion = .standstill ∧ p.ctxH.state = .stopped ∧ p.ctxV.state = .stopped
    (p.store.save ≠ none ∨ p.cycle.phase ≠ .idle → exec .storeLoad s = .next (refusedWith s r rest 2)) ∧
    (p.store.save = none → p.cycle.phase = .idle → copyValid p.store.copy = false →
      exec .storeLoad s = .next (replied s { p with store := { p.store with status := .fault } } r 11 [])) ∧
    (p.store.save = none → p.cycle.phase = .idle → copyValid p.store.copy = true → p.travel.originState = .set →
      (new.pitch ≠ old.pitch ∧ ¬ stopped) ∨ (new.scannerOffset ≠ old.scannerOffset ∧ p.travel.motion = .moving) →
      exec .storeLoad s = .next (refusedWith s r rest 2)) ∧
    (p.store.save = none → p.cycle.phase = .idle → copyValid p.store.copy = true →
      p.travel.originState = .none ∨ ((new.pitch = old.pitch ∨ stopped) ∧
        (new.scannerOffset = old.scannerOffset ∨ p.travel.motion = .standstill)) →
      ∃ q, exec .storeLoad s = .next (replied s q r 0 []) ∧
        (let set : Prop := p.travel.originState = .set
         let point := chainageC p + (match p.travel.direction with | .ascending => 1 | .descending => -1) * new.scannerOffset
         let authority := if new.supervisorNode ≠ old.supervisorNode then new.supervisorNode
           else if new.partNode ≠ old.partNode ∧ p.port.authority = new.partNode then new.supervisorNode
           else p.port.authority
         let loaded : Part := { p with
           travel := if new.pitch ≠ old.pitch ∧ set then { p.travel with origin := chainageC p, pulses := 0 } else p.travel
           scanner := if new.scannerOffset ≠ old.scannerOffset ∧ set then { p.scanner with
               active := true, window := [], phase := .seeking, guardSet := true, body := none
               front := some (match p.scanner.front with
                 | none => point
                 | some front => if 0 < aheadBy p.travel.direction point front then point else front) }
             else p.scanner
           store := { p.store with working := { new with partNode := old.partNode }, status := .loaded }
           port := { p.port with authority := authority } }
         let renewed := if new.positionTolerance ≠ old.positionTolerance then renewAndStart loaded else loaded
         q = { renewed with store := { p.store with working := new, status := .loaded } }) ∧
        q.store = { p.store with working := new, status := .loaded } ∧ chainageC q = chainageC p ∧
        q.travel.direction = p.travel.direction ∧ q.queue.records.map (·.number) = p.queue.records.map (·.number) ∧
        (new.pitch = old.pitch → q.travel = p.travel) ∧
        (new.scannerOffset = old.scannerOffset ∨ p.travel.originState = .none → q.scanner = p.scanner) ∧
        (new.scannerOffset ≠ old.scannerOffset → p.travel.originState = .set →
          q.scanner.window = [] ∧ q.scanner.body = none ∧ q.scanner.phase = .seeking) ∧
        q.port.authority = (if new.supervisorNode ≠ old.supervisorNode then new.supervisorNode
          else if new.partNode ≠ old.partNode ∧ p.port.authority = new.partNode then new.supervisorNode
          else p.port.authority) ∧
        (new.positionTolerance = old.positionTolerance → q.queue = p.queue ∧ q.cycle = p.cycle ∧ q.drive = p.drive) ∧
        q.plan = p.plan ∧ q.corr = p.corr ∧ q.trim = p.trim ∧ q.history = p.history)) ∧
  (∀ s r rest, AsksData s r rest 12 → r.fieldLength = 1 →
    let p := found s.part r rest
    let code := fieldNat r.fields 0 1
    (10 < code → exec .zeroCapture s = .next (refusedWith s r rest 4)) ∧
    (code ≤ 10 → p.store.save ≠ none → exec .zeroCapture s = .next (refusedWith s r rest 2)) ∧
    (code ≤ 10 → p.store.save = none → p.travel.motion = .moving ∨ p.cycle.phase ≠ .idle →
      exec .zeroCapture s = .next (refusedWith s r rest 3)) ∧
    (∀ ch, [Channel.ln, .lvl, .lvr, .xl, .axs, .dlo, .dli, .dri, .dro, .pl, .pr][code]? = some ch → p.store.save = none →
      p.travel.motion = .standstill → p.cycle.phase = .idle →
      let zero := roundDiv (p.history.get ch).sum (p.history.get ch).length
      exec .zeroCapture s = .next (replied s { p with store := { p.store with working := { p.store.working with
        zero := p.store.working.zero.set ch zero } } } r 0 (byte code :: writeInt 4 zero))))

/-- R194, R195, R198, R199, R203: a consistent record that has been saved survives a loss of power: its snapshot is a valid copy
that forms the same record, so after the end of the save, a loss of power and a power-on the part works from it, LOADED. The copy
that the end of the save reads back and the one that the loss of power leaves are the commands' operands (log entry 5). -/
def Obligations.SavedSettingsSurvivePowerLoss : Prop :=
  ∀ (s : State) (left : NvCopy), s.part.powered = true → StoreLegal s.part →
    let snapshot : NvCopy :=
      { words := s.part.store.working.toWords, checksum := checksumOf s.part.store.working.toWords }
    snapshot.words.length = 52 ∧ copyValid snapshot = true ∧ Settings.ofWords snapshot.words = s.part.store.working ∧
    (s.part.store.save = some snapshot →
      ∃ t u v, exec (.endOfSave snapshot) s = .next t ∧ exec (.powerLoss left) t = .next u ∧ exec .powerOn u = .next v ∧
        v.part.store = { working := s.part.store.working, copy := snapshot, save := none, status := .loaded } ∧
        v.part.port.authority = s.part.store.working.supervisorNode ∧ v.part.phase = .starting)

/-! ### The laws of every moment -/

/-- The part right after reset is legal in every block. The values of it that the manual does not give are those of log entries 2,
3 and 10. -/
def Obligations.ResetIsLegal : Prop := Legal State.reset.part

/-- R176, R182, R186: from every part within them, every step keeps the bounds of the receive and the transmit queue and of the
report sequence. -/
def Obligations.ThePortStaysWithinItsBounds : Prop :=
  ∀ s t : State, PortBounded s.part → step s = .next t → PortBounded t.part

/-- R13, R194, R198, R105, R95, R100: every step keeps the histories of at most 64 counts in range, the working record
consistent and equal to a running save's snapshot, the trim within its range, and the correction table, its grid and its
window legal. -/
def Obligations.RegistersStayInRange : Prop :=
  ∀ s t : State, HistoriesLegal s.part → StoreLegal s.part → TrimLegal s.part → CorrectionsLegal s.part → step s = .next t →
    HistoriesLegal t.part ∧ StoreLegal t.part ∧ TrimLegal t.part ∧ CorrectionsLegal t.part

/-- R6, R7, R131, R135, R144: every step keeps the chainage of C in range, the motion state and its timer in step wherever they
are held, every demand of the drive within its limits, and the drive at rest while the emergency stop line is asserted. -/
def Obligations.TravelAndDriveStayLegal : Prop :=
  ∀ s t : State, TravelLegal s.part → DriveLegal s.part → step s = .next t → TravelLegal t.part ∧ DriveLegal t.part

/-- R37, R38, R39, R40, R43, R149, R166: every step keeps at most 16 records in rising number with at most four reported, one
record IN_CYCLE exactly as the current sleeper of the five cycle states, and the cause set non-empty exactly in LOCKOUT. -/
def Obligations.QueueAndCycleStayLegal : Prop :=
  ∀ s t : State, QueueLegal s.part → CycleLegal s.part → step s = .next t → QueueLegal t.part ∧ CycleLegal t.part

/-- R56, R61, R70, R72: every step keeps plan memory and the contexts legal: above all, a slot is IN_USE exactly while a context
holds it, and the parts of each context are present in its states. -/
def Obligations.ThePlanStaysLegal : Prop :=
  ∀ s t : State, PlanLegal s.part → step s = .next t → PlanLegal t.part
end

