-- ==== Sys2Proof/Laws/State.lean ====
section
/-! SUPPORT. One lemma per field for each update of the state: what the update puts there, or that it leaves the field as it
was. -/

namespace Sys2Proof.Machine
open Sys2Proof

/-! ### Updates of the block's state -/

variable (s : State) (p : Part)

@[simp] theorem State.withPart_part (q : Part) : (s.withPart q).part = q := rfl
@[simp] theorem State.withPart_pending (q : Part) : (s.withPart q).pending = s.pending := rfl
@[simp] theorem State.withPart_self : s.withPart s.part = s := rfl
@[simp] theorem State.withPart_withPart (q r : Part) : (s.withPart q).withPart r = s.withPart r := rfl
@[simp] theorem State.withFront_part (c : Instr) : (s.withFront c).part = s.part := rfl
@[simp] theorem State.withFront_pending (c : Instr) : (s.withFront c).pending = c :: s.pending := rfl
@[simp] theorem State.withPending_part (cs : List Instr) : (s.withPending cs).part = s.part := rfl
@[simp] theorem State.withPending_pending (cs : List Instr) : (s.withPending cs).pending = cs := rfl

/-! ### Updates of the part -/

@[simp] theorem Part.withRecords_powered (rs : List SleeperRecord) :
    (p.withRecords rs).powered = p.powered := rfl
@[simp] theorem Part.withRecords_phase (rs : List SleeperRecord) :
    (p.withRecords rs).phase = p.phase := rfl
@[simp] theorem Part.withRecords_lines (rs : List SleeperRecord) :
    (p.withRecords rs).lines = p.lines := rfl
@[simp] theorem Part.withRecords_travel (rs : List SleeperRecord) :
    (p.withRecords rs).travel = p.travel := rfl
@[simp] theorem Part.withRecords_history (rs : List SleeperRecord) :
    (p.withRecords rs).history = p.history := rfl
@[simp] theorem Part.withRecords_scanner (rs : List SleeperRecord) :
    (p.withRecords rs).scanner = p.scanner := rfl
@[simp] theorem Part.withRecords_queue (rs : List SleeperRecord) :
    (p.withRecords rs).queue = { p.queue with records := rs } := rfl
@[simp] theorem Part.withRecords_plan (rs : List SleeperRecord) :
    (p.withRecords rs).plan = p.plan := rfl
@[simp] theorem Part.withRecords_ctxH (rs : List SleeperRecord) :
    (p.withRecords rs).ctxH = p.ctxH := rfl
@[simp] theorem Part.withRecords_ctxV (rs : List SleeperRecord) :
    (p.withRecords rs).ctxV = p.ctxV := rfl
@[simp] theorem Part.withRecords_corr (rs : List SleeperRecord) :
    (p.withRecords rs).corr = p.corr := rfl
@[simp] theorem Part.withRecords_trim (rs : List SleeperRecord) :
    (p.withRecords rs).trim = p.trim := rfl
@[simp] theorem Part.withRecords_drive (rs : List SleeperRecord) :
    (p.withRecords rs).drive = p.drive := rfl
@[simp] theorem Part.withRecords_cycle (rs : List SleeperRecord) :
    (p.withRecords rs).cycle = p.cycle := rfl
@[simp] theorem Part.withRecords_port (rs : List SleeperRecord) :
    (p.withRecords rs).port = p.port := rfl
@[simp] theorem Part.withRecords_store (rs : List SleeperRecord) :
    (p.withRecords rs).store = p.store := rfl

@[simp] theorem Part.withDrive_powered (d : Drive) :
    (p.withDrive d).powered = p.powered := rfl
@[simp] theorem Part.withDrive_phase (d : Drive) :
    (p.withDrive d).phase = p.phase := rfl
@[simp] theorem Part.withDrive_lines (d : Drive) :
    (p.withDrive d).lines = p.lines := rfl
@[simp] theorem Part.withDrive_travel (d : Drive) :
    (p.withDrive d).travel = p.travel := rfl
@[simp] theorem Part.withDrive_history (d : Drive) :
    (p.withDrive d).history = p.history := rfl
@[simp] theorem Part.withDrive_scanner (d : Drive) :
    (p.withDrive d).scanner = p.scanner := rfl
@[simp] theorem Part.withDrive_queue (d : Drive) :
    (p.withDrive d).queue = p.queue := rfl
@[simp] theorem Part.withDrive_plan (d : Drive) :
    (p.withDrive d).plan = p.plan := rfl
@[simp] theorem Part.withDrive_ctxH (d : Drive) :
    (p.withDrive d).ctxH = p.ctxH := rfl
@[simp] theorem Part.withDrive_ctxV (d : Drive) :
    (p.withDrive d).ctxV = p.ctxV := rfl
@[simp] theorem Part.withDrive_corr (d : Drive) :
    (p.withDrive d).corr = p.corr := rfl
@[simp] theorem Part.withDrive_trim (d : Drive) :
    (p.withDrive d).trim = p.trim := rfl
@[simp] theorem Part.withDrive_drive (d : Drive) :
    (p.withDrive d).drive = d := rfl
@[simp] theorem Part.withDrive_cycle (d : Drive) :
    (p.withDrive d).cycle = p.cycle := rfl
@[simp] theorem Part.withDrive_port (d : Drive) :
    (p.withDrive d).port = p.port := rfl
@[simp] theorem Part.withDrive_store (d : Drive) :
    (p.withDrive d).store = p.store := rfl

@[simp] theorem Part.setAxis_powered (x : Axis) (a : AxisState) :
    (p.setAxis x a).powered = p.powered := rfl
@[simp] theorem Part.setAxis_phase (x : Axis) (a : AxisState) :
    (p.setAxis x a).phase = p.phase := rfl
@[simp] theorem Part.setAxis_lines (x : Axis) (a : AxisState) :
    (p.setAxis x a).lines = p.lines := rfl
@[simp] theorem Part.setAxis_travel (x : Axis) (a : AxisState) :
    (p.setAxis x a).travel = p.travel := rfl
@[simp] theorem Part.setAxis_history (x : Axis) (a : AxisState) :
    (p.setAxis x a).history = p.history := rfl
@[simp] theorem Part.setAxis_scanner (x : Axis) (a : AxisState) :
    (p.setAxis x a).scanner = p.scanner := rfl
@[simp] theorem Part.setAxis_queue (x : Axis) (a : AxisState) :
    (p.setAxis x a).queue = p.queue := rfl
@[simp] theorem Part.setAxis_plan (x : Axis) (a : AxisState) :
    (p.setAxis x a).plan = p.plan := rfl
@[simp] theorem Part.setAxis_ctxH (x : Axis) (a : AxisState) :
    (p.setAxis x a).ctxH = p.ctxH := rfl
@[simp] theorem Part.setAxis_ctxV (x : Axis) (a : AxisState) :
    (p.setAxis x a).ctxV = p.ctxV := rfl
@[simp] theorem Part.setAxis_corr (x : Axis) (a : AxisState) :
    (p.setAxis x a).corr = p.corr := rfl
@[simp] theorem Part.setAxis_trim (x : Axis) (a : AxisState) :
    (p.setAxis x a).trim = p.trim := rfl
@[simp] theorem Part.setAxis_drive (x : Axis) (a : AxisState) :
    (p.setAxis x a).drive = { p.drive with axes := p.drive.axes.set x a } := rfl
@[simp] theorem Part.setAxis_cycle (x : Axis) (a : AxisState) :
    (p.setAxis x a).cycle = p.cycle := rfl
@[simp] theorem Part.setAxis_port (x : Axis) (a : AxisState) :
    (p.setAxis x a).port = p.port := rfl
@[simp] theorem Part.setAxis_store (x : Axis) (a : AxisState) :
    (p.setAxis x a).store = p.store := rfl

@[simp] theorem Part.withCycle_powered (c : Cycle) :
    (p.withCycle c).powered = p.powered := rfl
@[simp] theorem Part.withCycle_phase (c : Cycle) :
    (p.withCycle c).phase = p.phase := rfl
@[simp] theorem Part.withCycle_lines (c : Cycle) :
    (p.withCycle c).lines = p.lines := rfl
@[simp] theorem Part.withCycle_travel (c : Cycle) :
    (p.withCycle c).travel = p.travel := rfl
@[simp] theorem Part.withCycle_history (c : Cycle) :
    (p.withCycle c).history = p.history := rfl
@[simp] theorem Part.withCycle_scanner (c : Cycle) :
    (p.withCycle c).scanner = p.scanner := rfl
@[simp] theorem Part.withCycle_queue (c : Cycle) :
    (p.withCycle c).queue = p.queue := rfl
@[simp] theorem Part.withCycle_plan (c : Cycle) :
    (p.withCycle c).plan = p.plan := rfl
@[simp] theorem Part.withCycle_ctxH (c : Cycle) :
    (p.withCycle c).ctxH = p.ctxH := rfl
@[simp] theorem Part.withCycle_ctxV (c : Cycle) :
    (p.withCycle c).ctxV = p.ctxV := rfl
@[simp] theorem Part.withCycle_corr (c : Cycle) :
    (p.withCycle c).corr = p.corr := rfl
@[simp] theorem Part.withCycle_trim (c : Cycle) :
    (p.withCycle c).trim = p.trim := rfl
@[simp] theorem Part.withCycle_drive (c : Cycle) :
    (p.withCycle c).drive = p.drive := rfl
@[simp] theorem Part.withCycle_cycle (c : Cycle) :
    (p.withCycle c).cycle = c := rfl
@[simp] theorem Part.withCycle_port (c : Cycle) :
    (p.withCycle c).port = p.port := rfl
@[simp] theorem Part.withCycle_store (c : Cycle) :
    (p.withCycle c).store = p.store := rfl

@[simp] theorem Part.withTravel_powered (t : Travel) :
    (p.withTravel t).powered = p.powered := rfl
@[simp] theorem Part.withTravel_phase (t : Travel) :
    (p.withTravel t).phase = p.phase := rfl
@[simp] theorem Part.withTravel_lines (t : Travel) :
    (p.withTravel t).lines = p.lines := rfl
@[simp] theorem Part.withTravel_travel (t : Travel) :
    (p.withTravel t).travel = t := rfl
@[simp] theorem Part.withTravel_history (t : Travel) :
    (p.withTravel t).history = p.history := rfl
@[simp] theorem Part.withTravel_scanner (t : Travel) :
    (p.withTravel t).scanner = p.scanner := rfl
@[simp] theorem Part.withTravel_queue (t : Travel) :
    (p.withTravel t).queue = p.queue := rfl
@[simp] theorem Part.withTravel_plan (t : Travel) :
    (p.withTravel t).plan = p.plan := rfl
@[simp] theorem Part.withTravel_ctxH (t : Travel) :
    (p.withTravel t).ctxH = p.ctxH := rfl
@[simp] theorem Part.withTravel_ctxV (t : Travel) :
    (p.withTravel t).ctxV = p.ctxV := rfl
@[simp] theorem Part.withTravel_corr (t : Travel) :
    (p.withTravel t).corr = p.corr := rfl
@[simp] theorem Part.withTravel_trim (t : Travel) :
    (p.withTravel t).trim = p.trim := rfl
@[simp] theorem Part.withTravel_drive (t : Travel) :
    (p.withTravel t).drive = p.drive := rfl
@[simp] theorem Part.withTravel_cycle (t : Travel) :
    (p.withTravel t).cycle = p.cycle := rfl
@[simp] theorem Part.withTravel_port (t : Travel) :
    (p.withTravel t).port = p.port := rfl
@[simp] theorem Part.withTravel_store (t : Travel) :
    (p.withTravel t).store = p.store := rfl

@[simp] theorem Part.withPort_powered (q : Port) :
    (p.withPort q).powered = p.powered := rfl
@[simp] theorem Part.withPort_phase (q : Port) :
    (p.withPort q).phase = p.phase := rfl
@[simp] theorem Part.withPort_lines (q : Port) :
    (p.withPort q).lines = p.lines := rfl
@[simp] theorem Part.withPort_travel (q : Port) :
    (p.withPort q).travel = p.travel := rfl
@[simp] theorem Part.withPort_history (q : Port) :
    (p.withPort q).history = p.history := rfl
@[simp] theorem Part.withPort_scanner (q : Port) :
    (p.withPort q).scanner = p.scanner := rfl
@[simp] theorem Part.withPort_queue (q : Port) :
    (p.withPort q).queue = p.queue := rfl
@[simp] theorem Part.withPort_plan (q : Port) :
    (p.withPort q).plan = p.plan := rfl
@[simp] theorem Part.withPort_ctxH (q : Port) :
    (p.withPort q).ctxH = p.ctxH := rfl
@[simp] theorem Part.withPort_ctxV (q : Port) :
    (p.withPort q).ctxV = p.ctxV := rfl
@[simp] theorem Part.withPort_corr (q : Port) :
    (p.withPort q).corr = p.corr := rfl
@[simp] theorem Part.withPort_trim (q : Port) :
    (p.withPort q).trim = p.trim := rfl
@[simp] theorem Part.withPort_drive (q : Port) :
    (p.withPort q).drive = p.drive := rfl
@[simp] theorem Part.withPort_cycle (q : Port) :
    (p.withPort q).cycle = p.cycle := rfl
@[simp] theorem Part.withPort_port (q : Port) :
    (p.withPort q).port = q := rfl
@[simp] theorem Part.withPort_store (q : Port) :
    (p.withPort q).store = p.store := rfl

@[simp] theorem Part.withSlot_powered (k : Nat) (v : Slot) :
    (p.withSlot k v).powered = p.powered := rfl
@[simp] theorem Part.withSlot_phase (k : Nat) (v : Slot) :
    (p.withSlot k v).phase = p.phase := rfl
@[simp] theorem Part.withSlot_lines (k : Nat) (v : Slot) :
    (p.withSlot k v).lines = p.lines := rfl
@[simp] theorem Part.withSlot_travel (k : Nat) (v : Slot) :
    (p.withSlot k v).travel = p.travel := rfl
@[simp] theorem Part.withSlot_history (k : Nat) (v : Slot) :
    (p.withSlot k v).history = p.history := rfl
@[simp] theorem Part.withSlot_scanner (k : Nat) (v : Slot) :
    (p.withSlot k v).scanner = p.scanner := rfl
@[simp] theorem Part.withSlot_queue (k : Nat) (v : Slot) :
    (p.withSlot k v).queue = p.queue := rfl
@[simp] theorem Part.withSlot_plan (k : Nat) (v : Slot) :
    (p.withSlot k v).plan = setSlot p.plan k v := rfl
@[simp] theorem Part.withSlot_ctxH (k : Nat) (v : Slot) :
    (p.withSlot k v).ctxH = p.ctxH := rfl
@[simp] theorem Part.withSlot_ctxV (k : Nat) (v : Slot) :
    (p.withSlot k v).ctxV = p.ctxV := rfl
@[simp] theorem Part.withSlot_corr (k : Nat) (v : Slot) :
    (p.withSlot k v).corr = p.corr := rfl
@[simp] theorem Part.withSlot_trim (k : Nat) (v : Slot) :
    (p.withSlot k v).trim = p.trim := rfl
@[simp] theorem Part.withSlot_drive (k : Nat) (v : Slot) :
    (p.withSlot k v).drive = p.drive := rfl
@[simp] theorem Part.withSlot_cycle (k : Nat) (v : Slot) :
    (p.withSlot k v).cycle = p.cycle := rfl
@[simp] theorem Part.withSlot_port (k : Nat) (v : Slot) :
    (p.withSlot k v).port = p.port := rfl
@[simp] theorem Part.withSlot_store (k : Nat) (v : Slot) :
    (p.withSlot k v).store = p.store := rfl

@[simp] theorem Part.withCorr_powered (c : Corrections) :
    (p.withCorr c).powered = p.powered := rfl
@[simp] theorem Part.withCorr_phase (c : Corrections) :
    (p.withCorr c).phase = p.phase := rfl
@[simp] theorem Part.withCorr_lines (c : Corrections) :
    (p.withCorr c).lines = p.lines := rfl
@[simp] theorem Part.withCorr_travel (c : Corrections) :
    (p.withCorr c).travel = p.travel := rfl
@[simp] theorem Part.withCorr_history (c : Corrections) :
    (p.withCorr c).history = p.history := rfl
@[simp] theorem Part.withCorr_scanner (c : Corrections) :
    (p.withCorr c).scanner = p.scanner := rfl
@[simp] theorem Part.withCorr_queue (c : Corrections) :
    (p.withCorr c).queue = p.queue := rfl
@[simp] theorem Part.withCorr_plan (c : Corrections) :
    (p.withCorr c).plan = p.plan := rfl
@[simp] theorem Part.withCorr_ctxH (c : Corrections) :
    (p.withCorr c).ctxH = p.ctxH := rfl
@[simp] theorem Part.withCorr_ctxV (c : Corrections) :
    (p.withCorr c).ctxV = p.ctxV := rfl
@[simp] theorem Part.withCorr_corr (c : Corrections) :
    (p.withCorr c).corr = c := rfl
@[simp] theorem Part.withCorr_trim (c : Corrections) :
    (p.withCorr c).trim = p.trim := rfl
@[simp] theorem Part.withCorr_drive (c : Corrections) :
    (p.withCorr c).drive = p.drive := rfl
@[simp] theorem Part.withCorr_cycle (c : Corrections) :
    (p.withCorr c).cycle = p.cycle := rfl
@[simp] theorem Part.withCorr_port (c : Corrections) :
    (p.withCorr c).port = p.port := rfl
@[simp] theorem Part.withCorr_store (c : Corrections) :
    (p.withCorr c).store = p.store := rfl

@[simp] theorem Part.withWorking_powered (st : Settings) :
    (p.withWorking st).powered = p.powered := rfl
@[simp] theorem Part.withWorking_phase (st : Settings) :
    (p.withWorking st).phase = p.phase := rfl
@[simp] theorem Part.withWorking_lines (st : Settings) :
    (p.withWorking st).lines = p.lines := rfl
@[simp] theorem Part.withWorking_travel (st : Settings) :
    (p.withWorking st).travel = p.travel := rfl
@[simp] theorem Part.withWorking_history (st : Settings) :
    (p.withWorking st).history = p.history := rfl
@[simp] theorem Part.withWorking_scanner (st : Settings) :
    (p.withWorking st).scanner = p.scanner := rfl
@[simp] theorem Part.withWorking_queue (st : Settings) :
    (p.withWorking st).queue = p.queue := rfl
@[simp] theorem Part.withWorking_plan (st : Settings) :
    (p.withWorking st).plan = p.plan := rfl
@[simp] theorem Part.withWorking_ctxH (st : Settings) :
    (p.withWorking st).ctxH = p.ctxH := rfl
@[simp] theorem Part.withWorking_ctxV (st : Settings) :
    (p.withWorking st).ctxV = p.ctxV := rfl
@[simp] theorem Part.withWorking_corr (st : Settings) :
    (p.withWorking st).corr = p.corr := rfl
@[simp] theorem Part.withWorking_trim (st : Settings) :
    (p.withWorking st).trim = p.trim := rfl
@[simp] theorem Part.withWorking_drive (st : Settings) :
    (p.withWorking st).drive = p.drive := rfl
@[simp] theorem Part.withWorking_cycle (st : Settings) :
    (p.withWorking st).cycle = p.cycle := rfl
@[simp] theorem Part.withWorking_port (st : Settings) :
    (p.withWorking st).port = p.port := rfl
@[simp] theorem Part.withWorking_store (st : Settings) :
    (p.withWorking st).store = { p.store with working := st } := rfl

@[simp] theorem Part.withPatterns_powered (t : PerSlot Pattern) :
    (p.withPatterns t).powered = p.powered := rfl
@[simp] theorem Part.withPatterns_phase (t : PerSlot Pattern) :
    (p.withPatterns t).phase = p.phase := rfl
@[simp] theorem Part.withPatterns_lines (t : PerSlot Pattern) :
    (p.withPatterns t).lines = p.lines := rfl
@[simp] theorem Part.withPatterns_travel (t : PerSlot Pattern) :
    (p.withPatterns t).travel = p.travel := rfl
@[simp] theorem Part.withPatterns_history (t : PerSlot Pattern) :
    (p.withPatterns t).history = p.history := rfl
@[simp] theorem Part.withPatterns_scanner (t : PerSlot Pattern) :
    (p.withPatterns t).scanner = { p.scanner with patterns := t } := rfl
@[simp] theorem Part.withPatterns_queue (t : PerSlot Pattern) :
    (p.withPatterns t).queue = p.queue := rfl
@[simp] theorem Part.withPatterns_plan (t : PerSlot Pattern) :
    (p.withPatterns t).plan = p.plan := rfl
@[simp] theorem Part.withPatterns_ctxH (t : PerSlot Pattern) :
    (p.withPatterns t).ctxH = p.ctxH := rfl
@[simp] theorem Part.withPatterns_ctxV (t : PerSlot Pattern) :
    (p.withPatterns t).ctxV = p.ctxV := rfl
@[simp] theorem Part.withPatterns_corr (t : PerSlot Pattern) :
    (p.withPatterns t).corr = p.corr := rfl
@[simp] theorem Part.withPatterns_trim (t : PerSlot Pattern) :
    (p.withPatterns t).trim = p.trim := rfl
@[simp] theorem Part.withPatterns_drive (t : PerSlot Pattern) :
    (p.withPatterns t).drive = p.drive := rfl
@[simp] theorem Part.withPatterns_cycle (t : PerSlot Pattern) :
    (p.withPatterns t).cycle = p.cycle := rfl
@[simp] theorem Part.withPatterns_port (t : PerSlot Pattern) :
    (p.withPatterns t).port = p.port := rfl
@[simp] theorem Part.withPatterns_store (t : PerSlot Pattern) :
    (p.withPatterns t).store = p.store := rfl

@[simp] theorem setMotion_powered (m : Motion) :
    (setMotion p m).powered = p.powered := rfl
@[simp] theorem setMotion_phase (m : Motion) :
    (setMotion p m).phase = p.phase := rfl
@[simp] theorem setMotion_lines (m : Motion) :
    (setMotion p m).lines = p.lines := rfl
@[simp] theorem setMotion_travel (m : Motion) :
    (setMotion p m).travel = { p.travel with motion := m } := rfl
@[simp] theorem setMotion_history (m : Motion) :
    (setMotion p m).history = p.history := rfl
@[simp] theorem setMotion_scanner (m : Motion) :
    (setMotion p m).scanner = p.scanner := rfl
@[simp] theorem setMotion_queue (m : Motion) :
    (setMotion p m).queue = { p.queue with motion := m } := rfl
@[simp] theorem setMotion_plan (m : Motion) :
    (setMotion p m).plan = p.plan := rfl
@[simp] theorem setMotion_ctxH (m : Motion) :
    (setMotion p m).ctxH = p.ctxH := rfl
@[simp] theorem setMotion_ctxV (m : Motion) :
    (setMotion p m).ctxV = p.ctxV := rfl
@[simp] theorem setMotion_corr (m : Motion) :
    (setMotion p m).corr = p.corr := rfl
@[simp] theorem setMotion_trim (m : Motion) :
    (setMotion p m).trim = p.trim := rfl
@[simp] theorem setMotion_drive (m : Motion) :
    (setMotion p m).drive = p.drive := rfl
@[simp] theorem setMotion_cycle (m : Motion) :
    (setMotion p m).cycle = { p.cycle with motion := m } := rfl
@[simp] theorem setMotion_port (m : Motion) :
    (setMotion p m).port = p.port := rfl
@[simp] theorem setMotion_store (m : Motion) :
    (setMotion p m).store = p.store := rfl

@[simp] theorem setAuthority_powered (node : Int) :
    (setAuthority p node).powered = p.powered := rfl
@[simp] theorem setAuthority_phase (node : Int) :
    (setAuthority p node).phase = p.phase := rfl
@[simp] theorem setAuthority_lines (node : Int) :
    (setAuthority p node).lines = p.lines := rfl
@[simp] theorem setAuthority_travel (node : Int) :
    (setAuthority p node).travel = p.travel := rfl
@[simp] theorem setAuthority_history (node : Int) :
    (setAuthority p node).history = p.history := rfl
@[simp] theorem setAuthority_scanner (node : Int) :
    (setAuthority p node).scanner = p.scanner := rfl
@[simp] theorem setAuthority_queue (node : Int) :
    (setAuthority p node).queue = p.queue := rfl
@[simp] theorem setAuthority_plan (node : Int) :
    (setAuthority p node).plan = p.plan := rfl
@[simp] theorem setAuthority_ctxH (node : Int) :
    (setAuthority p node).ctxH = p.ctxH := rfl
@[simp] theorem setAuthority_ctxV (node : Int) :
    (setAuthority p node).ctxV = p.ctxV := rfl
@[simp] theorem setAuthority_corr (node : Int) :
    (setAuthority p node).corr = p.corr := rfl
@[simp] theorem setAuthority_trim (node : Int) :
    (setAuthority p node).trim = p.trim := rfl
@[simp] theorem setAuthority_drive (node : Int) :
    (setAuthority p node).drive = p.drive := rfl
@[simp] theorem setAuthority_cycle (node : Int) :
    (setAuthority p node).cycle = p.cycle := rfl
@[simp] theorem setAuthority_port (node : Int) :
    (setAuthority p node).port = { p.port with authority := node } := rfl
@[simp] theorem setAuthority_store (node : Int) :
    (setAuthority p node).store = p.store := rfl

@[simp] theorem observeOdometer_powered (l1 l2 : Bool) :
    (observeOdometer l1 l2 p).powered = p.powered := rfl
@[simp] theorem observeOdometer_phase (l1 l2 : Bool) :
    (observeOdometer l1 l2 p).phase = p.phase := rfl
@[simp] theorem observeOdometer_lines (l1 l2 : Bool) :
    (observeOdometer l1 l2 p).lines = { p.lines with odo1 := l1, odo2 := l2 } := rfl
@[simp] theorem observeOdometer_travel (l1 l2 : Bool) :
    (observeOdometer l1 l2 p).travel = p.travel := rfl
@[simp] theorem observeOdometer_history (l1 l2 : Bool) :
    (observeOdometer l1 l2 p).history = p.history := rfl
@[simp] theorem observeOdometer_scanner (l1 l2 : Bool) :
    (observeOdometer l1 l2 p).scanner = p.scanner := rfl
@[simp] theorem observeOdometer_queue (l1 l2 : Bool) :
    (observeOdometer l1 l2 p).queue = p.queue := rfl
@[simp] theorem observeOdometer_plan (l1 l2 : Bool) :
    (observeOdometer l1 l2 p).plan = p.plan := rfl
@[simp] theorem observeOdometer_ctxH (l1 l2 : Bool) :
    (observeOdometer l1 l2 p).ctxH = p.ctxH := rfl
@[simp] theorem observeOdometer_ctxV (l1 l2 : Bool) :
    (observeOdometer l1 l2 p).ctxV = p.ctxV := rfl
@[simp] theorem observeOdometer_corr (l1 l2 : Bool) :
    (observeOdometer l1 l2 p).corr = p.corr := rfl
@[simp] theorem observeOdometer_trim (l1 l2 : Bool) :
    (observeOdometer l1 l2 p).trim = p.trim := rfl
@[simp] theorem observeOdometer_drive (l1 l2 : Bool) :
    (observeOdometer l1 l2 p).drive = p.drive := rfl
@[simp] theorem observeOdometer_cycle (l1 l2 : Bool) :
    (observeOdometer l1 l2 p).cycle = p.cycle := rfl
@[simp] theorem observeOdometer_port (l1 l2 : Bool) :
    (observeOdometer l1 l2 p).port = p.port := rfl
@[simp] theorem observeOdometer_store (l1 l2 : Bool) :
    (observeOdometer l1 l2 p).store = p.store := rfl

@[simp] theorem setFoldLine_powered (arm : Arm) (v : Bool) :
    (setFoldLine p arm v).powered = p.powered := rfl
@[simp] theorem setFoldLine_phase (arm : Arm) (v : Bool) :
    (setFoldLine p arm v).phase = p.phase := rfl
@[simp] theorem setFoldLine_lines (arm : Arm) (v : Bool) :
    (setFoldLine p arm v).lines = { p.lines with folds := p.lines.folds.set arm v } := rfl
@[simp] theorem setFoldLine_travel (arm : Arm) (v : Bool) :
    (setFoldLine p arm v).travel = p.travel := rfl
@[simp] theorem setFoldLine_history (arm : Arm) (v : Bool) :
    (setFoldLine p arm v).history = p.history := rfl
@[simp] theorem setFoldLine_scanner (arm : Arm) (v : Bool) :
    (setFoldLine p arm v).scanner = p.scanner := rfl
@[simp] theorem setFoldLine_queue (arm : Arm) (v : Bool) :
    (setFoldLine p arm v).queue = p.queue := rfl
@[simp] theorem setFoldLine_plan (arm : Arm) (v : Bool) :
    (setFoldLine p arm v).plan = p.plan := rfl
@[simp] theorem setFoldLine_ctxH (arm : Arm) (v : Bool) :
    (setFoldLine p arm v).ctxH = p.ctxH := rfl
@[simp] theorem setFoldLine_ctxV (arm : Arm) (v : Bool) :
    (setFoldLine p arm v).ctxV = p.ctxV := rfl
@[simp] theorem setFoldLine_corr (arm : Arm) (v : Bool) :
    (setFoldLine p arm v).corr = p.corr := rfl
@[simp] theorem setFoldLine_trim (arm : Arm) (v : Bool) :
    (setFoldLine p arm v).trim = p.trim := rfl
@[simp] theorem setFoldLine_drive (arm : Arm) (v : Bool) :
    (setFoldLine p arm v).drive = p.drive := rfl
@[simp] theorem setFoldLine_cycle (arm : Arm) (v : Bool) :
    (setFoldLine p arm v).cycle = p.cycle := rfl
@[simp] theorem setFoldLine_port (arm : Arm) (v : Bool) :
    (setFoldLine p arm v).port = p.port := rfl
@[simp] theorem setFoldLine_store (arm : Arm) (v : Bool) :
    (setFoldLine p arm v).store = p.store := rfl

@[simp] theorem setEstopLine_powered (v : Bool) :
    (setEstopLine p v).powered = p.powered := rfl
@[simp] theorem setEstopLine_phase (v : Bool) :
    (setEstopLine p v).phase = p.phase := rfl
@[simp] theorem setEstopLine_lines (v : Bool) :
    (setEstopLine p v).lines = { p.lines with estop := v } := rfl
@[simp] theorem setEstopLine_travel (v : Bool) :
    (setEstopLine p v).travel = p.travel := rfl
@[simp] theorem setEstopLine_history (v : Bool) :
    (setEstopLine p v).history = p.history := rfl
@[simp] theorem setEstopLine_scanner (v : Bool) :
    (setEstopLine p v).scanner = p.scanner := rfl
@[simp] theorem setEstopLine_queue (v : Bool) :
    (setEstopLine p v).queue = p.queue := rfl
@[simp] theorem setEstopLine_plan (v : Bool) :
    (setEstopLine p v).plan = p.plan := rfl
@[simp] theorem setEstopLine_ctxH (v : Bool) :
    (setEstopLine p v).ctxH = p.ctxH := rfl
@[simp] theorem setEstopLine_ctxV (v : Bool) :
    (setEstopLine p v).ctxV = p.ctxV := rfl
@[simp] theorem setEstopLine_corr (v : Bool) :
    (setEstopLine p v).corr = p.corr := rfl
@[simp] theorem setEstopLine_trim (v : Bool) :
    (setEstopLine p v).trim = p.trim := rfl
@[simp] theorem setEstopLine_drive (v : Bool) :
    (setEstopLine p v).drive = p.drive := rfl
@[simp] theorem setEstopLine_cycle (v : Bool) :
    (setEstopLine p v).cycle = p.cycle := rfl
@[simp] theorem setEstopLine_port (v : Bool) :
    (setEstopLine p v).port = p.port := rfl
@[simp] theorem setEstopLine_store (v : Bool) :
    (setEstopLine p v).store = p.store := rfl

@[simp] theorem recordSample_powered (ch : Channel) (level : Int) :
    (recordSample p ch level).powered = p.powered := rfl
@[simp] theorem recordSample_phase (ch : Channel) (level : Int) :
    (recordSample p ch level).phase = p.phase := rfl
@[simp] theorem recordSample_lines (ch : Channel) (level : Int) :
    (recordSample p ch level).lines = p.lines := rfl
@[simp] theorem recordSample_travel (ch : Channel) (level : Int) :
    (recordSample p ch level).travel = p.travel := rfl
@[simp] theorem recordSample_history (ch : Channel) (level : Int) :
    (recordSample p ch level).history = p.history.set ch (appendCount (p.history.get ch) (convert level)) := rfl
@[simp] theorem recordSample_scanner (ch : Channel) (level : Int) :
    (recordSample p ch level).scanner = p.scanner := rfl
@[simp] theorem recordSample_queue (ch : Channel) (level : Int) :
    (recordSample p ch level).queue = p.queue := rfl
@[simp] theorem recordSample_plan (ch : Channel) (level : Int) :
    (recordSample p ch level).plan = p.plan := rfl
@[simp] theorem recordSample_ctxH (ch : Channel) (level : Int) :
    (recordSample p ch level).ctxH = p.ctxH := rfl
@[simp] theorem recordSample_ctxV (ch : Channel) (level : Int) :
    (recordSample p ch level).ctxV = p.ctxV := rfl
@[simp] theorem recordSample_corr (ch : Channel) (level : Int) :
    (recordSample p ch level).corr = p.corr := rfl
@[simp] theorem recordSample_trim (ch : Channel) (level : Int) :
    (recordSample p ch level).trim = p.trim := rfl
@[simp] theorem recordSample_drive (ch : Channel) (level : Int) :
    (recordSample p ch level).drive = p.drive := rfl
@[simp] theorem recordSample_cycle (ch : Channel) (level : Int) :
    (recordSample p ch level).cycle = p.cycle := rfl
@[simp] theorem recordSample_port (ch : Channel) (level : Int) :
    (recordSample p ch level).port = p.port := rfl
@[simp] theorem recordSample_store (ch : Channel) (level : Int) :
    (recordSample p ch level).store = p.store := rfl

/-! ### Plan contexts -/

@[simp] theorem Part.setCtx_ctx_self (i : ContextId) (c : Context) : (p.setCtx i c).ctx i = c := by cases i <;> rfl
@[simp] theorem Part.setCtx_h (c : Context) : (p.setCtx .h c).ctxH = c := rfl
@[simp] theorem Part.setCtx_v (c : Context) : (p.setCtx .v c).ctxV = c := rfl
@[simp] theorem Part.setCtx_powered (i : ContextId) (c : Context) : (p.setCtx i c).powered = p.powered := by
  cases i <;> rfl
@[simp] theorem Part.setCtx_phase (i : ContextId) (c : Context) : (p.setCtx i c).phase = p.phase := by
  cases i <;> rfl
@[simp] theorem Part.setCtx_lines (i : ContextId) (c : Context) : (p.setCtx i c).lines = p.lines := by
  cases i <;> rfl
@[simp] theorem Part.setCtx_travel (i : ContextId) (c : Context) : (p.setCtx i c).travel = p.travel := by
  cases i <;> rfl
@[simp] theorem Part.setCtx_history (i : ContextId) (c : Context) : (p.setCtx i c).history = p.history := by
  cases i <;> rfl
@[simp] theorem Part.setCtx_scanner (i : ContextId) (c : Context) : (p.setCtx i c).scanner = p.scanner := by
  cases i <;> rfl
@[simp] theorem Part.setCtx_queue (i : ContextId) (c : Context) : (p.setCtx i c).queue = p.queue := by
  cases i <;> rfl
@[simp] theorem Part.setCtx_plan (i : ContextId) (c : Context) : (p.setCtx i c).plan = p.plan := by
  cases i <;> rfl
@[simp] theorem Part.setCtx_corr (i : ContextId) (c : Context) : (p.setCtx i c).corr = p.corr := by
  cases i <;> rfl
@[simp] theorem Part.setCtx_trim (i : ContextId) (c : Context) : (p.setCtx i c).trim = p.trim := by
  cases i <;> rfl
@[simp] theorem Part.setCtx_drive (i : ContextId) (c : Context) : (p.setCtx i c).drive = p.drive := by
  cases i <;> rfl
@[simp] theorem Part.setCtx_cycle (i : ContextId) (c : Context) : (p.setCtx i c).cycle = p.cycle := by
  cases i <;> rfl
@[simp] theorem Part.setCtx_port (i : ContextId) (c : Context) : (p.setCtx i c).port = p.port := by
  cases i <;> rfl
@[simp] theorem Part.setCtx_store (i : ContextId) (c : Context) : (p.setCtx i c).store = p.store := by
  cases i <;> rfl

end Sys2Proof.Machine
end

