-- ==== Sys2Proof/Laws/Frames.lean ====
section
/-! SUPPORT. What each shared operation leaves unchanged. Each bundle below lists the fields outside one group of blocks;
an operation's frame lemma says that a bundle is as it was. A single field follows with `congrArg` and a projection of the
bundle. -/

namespace Sys2Proof.Machine
open Sys2Proof

/-- Everything but the queue, the drive, the cycle controller and the port. -/
structure Ground where
  powered : Bool
  phase : PartPhase
  lines : Lines
  travel : Travel
  history : PerChannel (List Int)
  scanner : Scanner
  plan : Table Slot
  ctxH : Context
  ctxV : Context
  corr : Corrections
  trim : Int
  store : Store

/-- The fields of a part outside the queue, the drive, the cycle controller and the port. -/
def Part.ground (p : Part) : Ground :=
  ⟨p.powered, p.phase, p.lines, p.travel, p.history, p.scanner, p.plan, p.ctxH, p.ctxV, p.corr, p.trim, p.store⟩

/-- The fields of a part outside the queue and the port. -/
def Part.offQueue (p : Part) : Ground × Drive × Cycle := (p.ground, p.drive, p.cycle)

/-- The fields of a part outside the port. -/
def Part.offPort (p : Part) : Ground × Drive × Cycle × Queue := (p.ground, p.drive, p.cycle, p.queue)

/-- The fields of a part outside plan memory, the plan contexts and the port. -/
def Part.offPlan (p : Part) :
    (Bool × PartPhase × Lines × Travel × PerChannel (List Int) × Scanner × Corrections × Int × Store) ×
      Drive × Cycle × Queue :=
  ((p.powered, p.phase, p.lines, p.travel, p.history, p.scanner, p.corr, p.trim, p.store), p.drive, p.cycle, p.queue)

/-- The fields of a part outside the scanner, the queue and the port. -/
def Part.offScanner (p : Part) :
    (Bool × PartPhase × Lines × Travel × PerChannel (List Int) × Table Slot × Context × Context × Corrections × Int ×
      Store) × Drive × Cycle :=
  ((p.powered, p.phase, p.lines, p.travel, p.history, p.plan, p.ctxH, p.ctxV, p.corr, p.trim, p.store), p.drive, p.cycle)

section
variable {p q : Part}

theorem ground_of_offQueue (h : q.offQueue = p.offQueue) : q.ground = p.ground := congrArg Prod.fst h
theorem ground_of_offPort (h : q.offPort = p.offPort) : q.ground = p.ground := congrArg Prod.fst h
theorem offQueue_of_offPort (h : q.offPort = p.offPort) : q.offQueue = p.offQueue := by
  simp only [Part.offPort, Part.offQueue, Prod.mk.injEq] at *; exact ⟨h.1, h.2.1, h.2.2.1⟩
theorem offPlan_of_offPort (h : q.offPort = p.offPort) : q.offPlan = p.offPlan := by
  simp only [Part.offPort, Part.offPlan, Part.ground, Prod.mk.injEq, Ground.mk.injEq] at *; simp [h]
theorem offScanner_of_offQueue (h : q.offQueue = p.offQueue) : q.offScanner = p.offScanner := by
  simp only [Part.offQueue, Part.offScanner, Part.ground, Prod.mk.injEq, Ground.mk.injEq] at *; simp [h]
theorem queue_of_offPort (h : q.offPort = p.offPort) : q.queue = p.queue := by
  simp only [Part.offPort, Prod.mk.injEq] at h; exact h.2.2.2
end

variable (p : Part)

/-! ### The port (R183 to R186) -/

theorem pushReport_offPort (kind : Nat) (fields : List Byte) : (pushReport p kind fields).offPort = p.offPort := rfl
theorem pushReport_eq (kind : Nat) (fields : List Byte) :
    pushReport p kind fields = { p with port := (pushReport p kind fields).port } := rfl

theorem admitHalt_offPort : (admitHalt p).offPort = p.offPort := by unfold admitHalt; split <;> rfl
theorem admitStop_offPort : (admitStop p).offPort = p.offPort := by unfold admitStop; split <;> rfl
theorem admitEvent_offPort (k : EventKind) : (admitEvent p k).offPort = p.offPort := by unfold admitEvent; split <;> rfl

theorem admitSource_offPort (s : ReportSource) : (admitSource p s).offPort = p.offPort := by
  cases s
  · exact admitHalt_offPort p
  · exact admitStop_offPort p
  · exact admitEvent_offPort p _

theorem admitWaiting_offPort (n : Nat) : (admitWaiting n p).offPort = p.offPort := by
  induction n generalizing p with
  | zero => rfl
  | succ n ih =>
    unfold admitWaiting
    split
    · split
      · rfl
      · rw [ih, admitSource_offPort]
    · rfl

theorem afterHandOn_offPort : (afterHandOn p).offPort = p.offPort := admitWaiting_offPort p 8
theorem holdEvent_offPort (e : Event) : (holdEvent p e).offPort = p.offPort := rfl
theorem handEvent_offPort (e : Event) : (handEvent p e).offPort = p.offPort := afterHandOn_offPort (holdEvent p e)
theorem handHalt_offPort (r : HaltReport) : (handHalt p r).offPort = p.offPort := afterHandOn_offPort _
theorem handStop_offPort (r : StopReport) : (handStop p r).offPort = p.offPort := afterHandOn_offPort _

@[simp] theorem handEvent_ground (e : Event) : (handEvent p e).ground = p.ground := ground_of_offPort (handEvent_offPort p e)
@[simp] theorem handEvent_offQueue (e : Event) : (handEvent p e).offQueue = p.offQueue :=
  offQueue_of_offPort (handEvent_offPort p e)
@[simp] theorem handEvent_queue (e : Event) : (handEvent p e).queue = p.queue := queue_of_offPort (handEvent_offPort p e)
@[simp] theorem handEvent_drive (e : Event) : (handEvent p e).drive = p.drive :=
  congrArg (fun x => x.2.1) (handEvent_offPort p e)
@[simp] theorem handEvent_cycle (e : Event) : (handEvent p e).cycle = p.cycle :=
  congrArg (fun x => x.2.2.1) (handEvent_offPort p e)

/-! ### The sleeper queue (chapter 3) -/

theorem testStopPoint_offQueue : (testStopPoint p).offQueue = p.offQueue := by
  unfold testStopPoint
  simp only
  split
  · rfl
  · exact (offQueue_of_offPort (handStop_offPort _ _)).trans rfl

/-- R50: a test of the stop point changes no more of the queue than the last stop point handed on. -/
theorem testStopPoint_queue : (testStopPoint p).queue = { p.queue with lastStop := stopPointOf p } := by
  unfold testStopPoint
  simp only
  split
  · next h => rw [h]
  · rw [queue_of_offPort (handStop_offPort _ _)]

theorem renewInPosition_offQueue : (renewInPosition p).1.offQueue = p.offQueue := rfl
theorem renewInPosition_port : (renewInPosition p).1.port = p.port := rfl

theorem passRecord_offQueue (n : Nat) : (passRecord p n).offQueue = p.offQueue := by
  unfold passRecord
  split
  · rfl
  · split
    · exact testStopPoint_offQueue _
    · rfl

theorem foldl_passRecord_offQueue (ns : List Nat) : (ns.foldl passRecord p).offQueue = p.offQueue := by
  induction ns generalizing p with
  | nil => rfl
  | cons n ns ih => rw [List.foldl_cons, ih, passRecord_offQueue]

theorem passRecords_offQueue : (passRecords p).offQueue = p.offQueue := foldl_passRecord_offQueue p _

theorem haltStep_offQueue (r : SleeperRecord) : (haltStep p r).offQueue = p.offQueue := by
  unfold haltStep
  split
  · exact (offQueue_of_offPort (handHalt_offPort _ _)).trans rfl
  · rfl

theorem recordCandidate_offQueue (c : Candidate) : (recordCandidate p c).offQueue = p.offQueue := by
  unfold recordCandidate
  simp only
  split
  · exact handEvent_offQueue p _
  · rw [testStopPoint_offQueue, renewInPosition_offQueue, passRecord_offQueue, haltStep_offQueue]; rfl

theorem startRecord_offQueue (n : Nat) : (startRecord p n).offQueue = p.offQueue := by
  unfold startRecord; split <;> rfl

theorem finishRecord_offQueue (n : Nat) (st : RecordState) (c : Option FailureCause) (r : Option CycleResult) :
    (finishRecord p n st c r).offQueue = p.offQueue := testStopPoint_offQueue _

theorem putBackRecord_offQueue (n : Nat) : (putBackRecord p n).offQueue = p.offQueue := by
  unfold putBackRecord
  split
  · rfl
  · exact testStopPoint_offQueue _

theorem acceptRecord_offQueue (r : SleeperRecord) : (acceptRecord p r).offQueue = p.offQueue := rfl

/-! ### The scanner (chapter 2) -/

theorem takeCell_offScanner (lines : ScanLines) (x : Int) : (takeCell lines p x).offScanner = p.offScanner := by
  unfold takeCell
  simp only
  split
  · rfl
  · exact (offScanner_of_offQueue (recordCandidate_offQueue _ _)).trans rfl

theorem foldl_takeCell_offScanner (lines : ScanLines) (xs : List Int) :
    (xs.foldl (takeCell lines) p).offScanner = p.offScanner := by
  induction xs generalizing p with
  | nil => rfl
  | cons x xs ih => rw [List.foldl_cons, ih, takeCell_offScanner]

theorem scannerAdvance_offScanner (lines : ScanLines) : (scannerAdvance lines p).offScanner = p.offScanner := by
  unfold scannerAdvance
  split
  · simp only
    split
    · exact (foldl_takeCell_offScanner _ _ _).trans rfl
    · rfl
  · rfl

/-! ### Plan memory and the plan contexts (chapters 4 and 5) -/

theorem setCtx_offPlan (i : ContextId) (c : Context) : (p.setCtx i c).offPlan = p.offPlan := by cases i <;> rfl

theorem setWalk_offPlan (i : ContextId) (c : Context) (w : Walk) : (p.setWalk i c w).offPlan = p.offPlan := by
  cases i <;> rfl

theorem handPlanState_offPlan (i : ContextId) (slot : Option Nat) : (handPlanState p i slot).offPlan = p.offPlan :=
  offPlan_of_offPort (handEvent_offPort p _)

theorem contextDies_offPlan (i : ContextId) (c : Context) (w : Walk) (code : DeadCode) (slot : Nat)
    (held : Option SegmentRecord) : (contextDies p i c w code slot held).offPlan = p.offPlan := by
  unfold contextDies; rw [handPlanState_offPlan, setWalk_offPlan]

theorem segmentEnd_offPlan (i : ContextId) (r : SegmentRecord) : (segmentEnd p i r).offPlan = p.offPlan := by
  unfold segmentEnd
  simp only
  split
  · exact setCtx_offPlan _ _ _
  · split
    · rw [handPlanState_offPlan, setCtx_offPlan]; rfl
    · split
      · exact setWalk_offPlan _ _ _ _
      · exact contextDies_offPlan _ _ _ _ _ _ _

theorem catchUpBy_offPlan (i : ContextId) (n : Nat) : (catchUpBy i n p).offPlan = p.offPlan := by
  induction n generalizing p with
  | zero => rfl
  | succ n ih =>
    unfold catchUpBy
    split
    · split
      · rw [ih, segmentEnd_offPlan]
      · rfl
    · rfl

theorem catchUp_offPlan (i : ContextId) : (catchUp p i).offPlan = p.offPlan := by
  unfold catchUp
  split
  · rfl
  · exact catchUpBy_offPlan _ _ _

theorem startContext_offPlan (i : ContextId) (first : Nat) (start : Int) :
    (startContext p i first start).offPlan = p.offPlan := by
  unfold startContext
  simp only
  split
  · rw [catchUp_offPlan, handPlanState_offPlan, setWalk_offPlan]
  · exact contextDies_offPlan _ _ _ _ _ _ _

theorem contextAdvance_offPlan (i : ContextId) : (contextAdvance i p).offPlan = p.offPlan := by
  unfold contextAdvance
  simp only
  split
  · split
    · rfl
    · split
      · exact startContext_offPlan _ _ _ _
      · rfl
  · exact catchUp_offPlan _ _
  · rfl

theorem wakeContext_offPlan (i : ContextId) : (wakeContext p i).offPlan = p.offPlan := by
  unfold wakeContext
  simp only
  split
  · rfl
  · split
    · rfl
    · split
      · rw [catchUp_offPlan, handPlanState_offPlan, setWalk_offPlan]
      · exact contextDies_offPlan _ _ _ _ _ _ _

theorem stopContext_offPlan (i : ContextId) : (stopContext p i).offPlan = p.offPlan := by
  unfold stopContext; simp only; rw [handPlanState_offPlan, setCtx_offPlan]; rfl

/-! ### The drive and the cycle controller (chapters 8 and 9): the ground is as it was -/

@[simp] theorem withCycle_ground (c : Cycle) : (p.withCycle c).ground = p.ground := rfl
@[simp] theorem withDrive_ground (d : Drive) : (p.withDrive d).ground = p.ground := rfl
@[simp] theorem setAxis_ground (x : Axis) (a : AxisState) : (p.setAxis x a).ground = p.ground := rfl
@[simp] theorem withRecords_ground (rs : List SleeperRecord) : (p.withRecords rs).ground = p.ground := rfl
@[simp] theorem renewInPosition_ground : (renewInPosition p).1.ground = p.ground := rfl
@[simp] theorem testStopPoint_ground : (testStopPoint p).ground = p.ground :=
  ground_of_offQueue (testStopPoint_offQueue p)
@[simp] theorem startRecord_ground (n : Nat) : (startRecord p n).ground = p.ground :=
  ground_of_offQueue (startRecord_offQueue p n)
@[simp] theorem finishRecord_ground (n : Nat) (st : RecordState) (c : Option FailureCause) (r : Option CycleResult) :
    (finishRecord p n st c r).ground = p.ground := ground_of_offQueue (finishRecord_offQueue p n st c r)
@[simp] theorem putBackRecord_ground (n : Nat) : (putBackRecord p n).ground = p.ground :=
  ground_of_offQueue (putBackRecord_offQueue p n)
@[simp] theorem acceptRecord_ground (r : SleeperRecord) : (acceptRecord p r).ground = p.ground := rfl
@[simp] theorem writeTargets_ground (n : Nat) : (writeTargets p n).ground = p.ground := rfl

@[simp] theorem updateAxis_ground (x : Axis) : (updateAxis p x).1.ground = p.ground := by
  unfold updateAxis; simp only; split <;> rfl

@[simp] theorem expireMove_ground (x : Axis) : (expireMove p x).1.ground = p.ground := by
  unfold expireMove; simp only; split <;> rfl

@[simp] theorem moveStart_ground (t : Targets) : (moveStart p t).1.ground = p.ground := by
  unfold moveStart; simp only; split
  · rfl
  · split <;> split <;> rfl

@[simp] theorem holdDrive_ground : (holdDrive p).ground = p.ground := by unfold holdDrive; split <;> rfl
@[simp] theorem releaseDrive_ground : (releaseDrive p).ground = p.ground := by unfold releaseDrive; split <;> rfl
@[simp] theorem endRelease_ground : (endRelease p).1.ground = p.ground := rfl
@[simp] theorem stopDrive_ground : (stopDrive p).ground = p.ground := rfl

@[simp] theorem enterReleasing_ground : (enterReleasing p).ground = p.ground := by simp [enterReleasing]

section
variable {penetrate : Part → Part} (hp : ∀ q, (penetrate q).ground = q.ground)
include hp

theorem endRaise_ground : (endRaise penetrate p).ground = p.ground := by
  unfold endRaise; simp only; split <;> simp [hp]

theorem enterRaisingWith_ground : (enterRaisingWith penetrate p).ground = p.ground := by
  unfold enterRaisingWith; simp only; split <;> simp [endRaise_ground _ hp]

theorem endSqueezing_ground : (endSqueezing penetrate p).ground = p.ground := by
  simp [endSqueezing, enterRaisingWith_ground _ hp]

theorem afterSqueeze_ground : (afterSqueeze penetrate p).ground = p.ground := by
  unfold afterSqueeze; split <;> simp [endSqueezing_ground _ hp]

theorem enterSqueezingWith_ground : (enterSqueezingWith penetrate p).ground = p.ground := by
  simp [enterSqueezingWith, afterSqueeze_ground _ hp, endSqueezeOf]

theorem afterDepth_ground : (afterDepth penetrate p).ground = p.ground := by
  unfold afterDepth; split <;> simp [enterSqueezingWith_ground _ hp]
end

@[simp] theorem endSqueezeOf_ground (which : TampUnit → Bool) (timed : Bool) :
    (endSqueezeOf which timed p).ground = p.ground := rfl
@[simp] theorem reachDepthOf_ground (which : TampUnit → Bool) : (reachDepthOf which p).ground = p.ground := rfl
@[simp] theorem setPenetrating_ground : (setPenetrating p).ground = p.ground := rfl

theorem penetrateBy_ground (n : Nat) : (penetrateBy n p).ground = p.ground := by
  induction n generalizing p with
  | zero => rfl
  | succ n ih => unfold penetrateBy; rw [afterDepth_ground _ ih]; simp

@[simp] theorem enterPenetrating_ground : (enterPenetrating p).ground = p.ground := penetrateBy_ground _ _
@[simp] theorem enterSqueezing_ground : (enterSqueezing p).ground = p.ground :=
  enterSqueezingWith_ground _ enterPenetrating_ground
@[simp] theorem enterRaising_ground : (enterRaising p).ground = p.ground :=
  enterRaisingWith_ground _ enterPenetrating_ground

@[simp] theorem endFolding_ground : (endFolding p).ground = p.ground := by
  unfold endFolding; simp only; split <;> simp

@[simp] theorem confirmUnits_ground : (confirmUnits p).ground = p.ground := by
  unfold confirmUnits; simp only; split <;> simp

@[simp] theorem beginFolding_ground : (beginFolding p).ground = p.ground := by simp [beginFolding]

@[simp] theorem positioned_ground : (positioned p).ground = p.ground := by
  unfold positioned; split <;> simp

@[simp] theorem beginCycle_ground (r : SleeperRecord) : (beginCycle p r).ground = p.ground := by simp [beginCycle]

@[simp] theorem giveMoveStart_ground (n : Nat) : (giveMoveStart p n).ground = p.ground := by
  unfold giveMoveStart
  split
  · rfl
  · next t _ =>
    have h := moveStart_ground p t
    split <;> simp_all

@[simp] theorem startCycle_ground (r : SleeperRecord) : (startCycle p r).ground = p.ground := by simp [startCycle]

@[simp] theorem startEvent_ground : (startEvent p).ground = p.ground := by
  unfold startEvent
  split
  · rfl
  · split
    · rfl
    · split <;> simp

@[simp] theorem renewAndStart_ground : (renewAndStart p).ground = p.ground := by
  have h := renewInPosition_ground p
  unfold renewAndStart
  split <;> simp_all

@[simp] theorem addCause_ground (c : Cause) (n : Option Nat) : (addCause p c n).ground = p.ground := by
  unfold addCause; split <;> simp

@[simp] theorem enterLockout_ground (c : Cause) (n : Option Nat) : (enterLockout p c n).ground = p.ground := by
  simp [enterLockout]

@[simp] theorem afterLockoutDepth_ground : (afterLockoutDepth p).ground = p.ground := by
  unfold afterLockoutDepth; split <;> simp

@[simp] theorem startLockoutRaise_ground : (startLockoutRaise p).ground = p.ground := by simp [startLockoutRaise]
@[simp] theorem dropCurrent_ground : (dropCurrent p).ground = p.ground := rfl

@[simp] theorem failCurrent_ground (c : FailureCause) : (failCurrent p c).ground = p.ground := by
  unfold failCurrent; split <;> simp

@[simp] theorem putBackCurrent_ground : (putBackCurrent p).ground = p.ground := by
  unfold putBackCurrent; split <;> simp

@[simp] theorem travelFault_ground : (travelFault p).ground = p.ground := by simp [travelFault]
@[simp] theorem stuckFault_ground : (stuckFault p).ground = p.ground := by simp [stuckFault]
@[simp] theorem abandonCycle_ground : (abandonCycle p).ground = p.ground := by simp [abandonCycle]

@[simp] theorem cycleMoving_ground : (cycleMoving p).ground = p.ground := by
  unfold cycleMoving
  split <;> (try split) <;> (try simp)
  split <;> simp

@[simp] theorem stopCycle_ground : (stopCycle p).ground = p.ground := by
  unfold stopCycle
  split <;> (try split) <;> simp

@[simp] theorem cycleEstop_ground : (cycleEstop p).ground = p.ground := by
  unfold cycleEstop
  simp only
  split <;> split <;> simp

@[simp] theorem depthSample_ground (u : TampUnit) : (depthSample u p).ground = p.ground := by
  unfold depthSample
  split
  · rw [afterDepth_ground _ enterPenetrating_ground]; simp
  · split
    · simp only
      split
      · rw [endRaise_ground _ enterPenetrating_ground]; simp
      · simp
    · rfl
  · simp only [afterLockoutDepth_ground]
    split <;> simp
  · rfl

@[simp] theorem pressureSample_ground (ch : Channel) : (pressureSample ch p).ground = p.ground := by
  unfold pressureSample
  split
  · rw [afterSqueeze_ground _ enterPenetrating_ground]; simp
  · rfl

@[simp] theorem cycleReleaseEnd_ground (r : PerAxis (Option Int)) : (cycleReleaseEnd p r).ground = p.ground := by
  unfold cycleReleaseEnd
  split
  · simp only
    cases p.cycle.current <;> simp
  · rfl

end Sys2Proof.Machine
end

