-- ==== Sys2Proof/Laws/Closed.lean ====
section
/-! SUPPORT. The moves that the queue, the drive and the cycle controller are made of, and one lemma per operation: a
property of the part that every such move keeps is kept by the operation. With a property of the port alone this says all
that an operation can do to the port. -/

namespace Sys2Proof.Machine
open Sys2Proof

/-- A property of the part that is kept by any change of the queue, the drive and the cycle controller, and by handing a
report to the port. -/
structure Closed (I : Part → Prop) : Prop where
  queue : ∀ p q, I p → I { p with queue := q }
  drive : ∀ p d, I p → I { p with drive := d }
  cycle : ∀ p c, I p → I { p with cycle := c }
  event : ∀ p e, I p → I (handEvent p e)
  halt : ∀ p r, I p → I (handHalt p r)
  stop : ∀ p r, I p → I (handStop p r)

namespace Closed
variable {I : Part → Prop} (h : Closed I) {p : Part}
include h

theorem withCycle {c : Cycle} (hp : I p) : I (p.withCycle c) := h.cycle _ _ hp
theorem withDrive {d : Drive} (hp : I p) : I (p.withDrive d) := h.drive _ _ hp
theorem withRecords {rs : List SleeperRecord} (hp : I p) : I (p.withRecords rs) := h.queue _ _ hp

/-! ### The queue -/

theorem testStopPoint (hp : I p) : I (testStopPoint p) := by
  unfold Machine.testStopPoint
  simp only
  split
  · exact hp
  · exact h.stop _ _ (h.queue _ _ hp)

theorem renewInPosition (hp : I p) : I (renewInPosition p).1 := h.queue _ _ hp

theorem passRecord {n : Nat} (hp : I p) : I (passRecord p n) := by
  unfold Machine.passRecord
  split
  · exact hp
  · split
    · exact h.testStopPoint (h.withRecords hp)
    · exact hp

theorem passRecords (hp : I p) : I (passRecords p) := by
  have : ∀ (ns : List Nat) (q : Part), I q → I (ns.foldl Machine.passRecord q) := by
    intro ns
    induction ns with
    | nil => exact fun _ hq => hq
    | cons n ns ih => exact fun q hq => ih _ (h.passRecord hq)
  exact this _ _ hp

theorem haltStep {r : SleeperRecord} (hp : I p) : I (haltStep p r) := by
  unfold Machine.haltStep
  split
  · exact h.halt _ _ (h.queue _ _ hp)
  · exact hp

theorem recordCandidate {c : Candidate} (hp : I p) : I (recordCandidate p c) := by
  unfold Machine.recordCandidate
  simp only
  split
  · exact h.event _ _ hp
  · exact h.testStopPoint (h.renewInPosition (h.passRecord (h.haltStep (h.queue _ _ hp))))

theorem startRecord {n : Nat} (hp : I p) : I (startRecord p n) := by
  unfold Machine.startRecord
  split
  · exact hp
  · exact h.queue _ _ hp

theorem finishRecord {n : Nat} {st : RecordState} {c : Option FailureCause} {r : Option CycleResult} (hp : I p) :
    I (finishRecord p n st c r) := h.testStopPoint (h.queue _ _ hp)

theorem putBackRecord {n : Nat} (hp : I p) : I (putBackRecord p n) := by
  unfold Machine.putBackRecord
  split
  · exact hp
  · exact h.testStopPoint (h.queue _ _ hp)

theorem writeTargets {n : Nat} (hp : I p) : I (writeTargets p n) := h.withRecords hp

/-! ### The drive -/

theorem updateAxis {x : Axis} (hp : I p) : I (updateAxis p x).1 := by
  unfold Machine.updateAxis
  simp only
  split
  · exact h.drive _ _ hp
  · exact hp

theorem expireMove {x : Axis} (hp : I p) : I (expireMove p x).1 := by
  unfold Machine.expireMove
  simp only
  split
  · exact h.drive _ _ hp
  · exact hp

theorem moveStart {t : Targets} (hp : I p) : I (moveStart p t).1 := by
  unfold Machine.moveStart
  simp only
  split
  · exact hp
  · split <;> split
    · exact h.withDrive hp
    · exact h.withDrive (h.withDrive hp)
    · exact hp
    · exact h.withDrive hp

theorem holdDrive (hp : I p) : I (holdDrive p) := by
  unfold Machine.holdDrive
  split
  · exact h.withDrive hp
  · exact hp

theorem releaseDrive (hp : I p) : I (releaseDrive p) := by
  unfold Machine.releaseDrive
  split
  · exact h.withDrive hp
  · exact hp

/-! ### The phases of a cycle -/

theorem enterReleasing (hp : I p) : I (enterReleasing p) := h.releaseDrive (h.withCycle hp)

section
variable {penetrate : Part → Part} (hpen : ∀ q, I q → I (penetrate q))
include hpen

theorem endRaise (hp : I p) : I (endRaise penetrate p) := by
  unfold Machine.endRaise
  simp only
  split
  · exact hpen _ (h.withCycle hp)
  · exact h.enterReleasing (h.withCycle hp)

theorem enterRaisingWith (hp : I p) : I (enterRaisingWith penetrate p) := by
  unfold Machine.enterRaisingWith
  simp only
  split
  · exact h.endRaise hpen (h.withCycle hp)
  · exact h.withCycle hp

theorem endSqueezing (hp : I p) : I (endSqueezing penetrate p) := h.enterRaisingWith hpen (h.withCycle hp)

theorem afterSqueeze (hp : I p) : I (afterSqueeze penetrate p) := by
  unfold Machine.afterSqueeze
  split
  · exact h.endSqueezing hpen hp
  · exact hp

theorem enterSqueezingWith (hp : I p) : I (enterSqueezingWith penetrate p) :=
  h.afterSqueeze hpen (h.withCycle (h.withCycle hp))

theorem afterDepth (hp : I p) : I (afterDepth penetrate p) := by
  unfold Machine.afterDepth
  split
  · exact h.enterSqueezingWith hpen hp
  · exact hp
end

theorem endSqueezeOf {which : TampUnit → Bool} {timed : Bool} (hp : I p) : I (endSqueezeOf which timed p) :=
  h.withCycle hp

theorem reachDepthOf {which : TampUnit → Bool} (hp : I p) : I (reachDepthOf which p) := h.withCycle hp

theorem penetrateBy (n : Nat) : ∀ {p}, I p → I (penetrateBy n p) := by
  induction n with
  | zero => exact fun hp => hp
  | succ n ih => exact fun hp => h.afterDepth (fun _ hq => ih hq) (h.withCycle (h.withCycle hp))

theorem enterPenetrating (hp : I p) : I (enterPenetrating p) := h.penetrateBy _ hp

theorem enterSqueezing (hp : I p) : I (enterSqueezing p) := h.enterSqueezingWith (fun _ => h.enterPenetrating) hp

theorem enterRaising (hp : I p) : I (enterRaising p) := h.enterRaisingWith (fun _ => h.enterPenetrating) hp

theorem endFolding (hp : I p) : I (endFolding p) := by
  unfold Machine.endFolding
  simp only
  split
  · exact h.enterPenetrating (h.withCycle hp)
  · exact h.enterReleasing (h.withCycle hp)

theorem confirmUnits (hp : I p) : I (confirmUnits p) := by
  unfold Machine.confirmUnits
  simp only
  split
  · exact h.withCycle hp
  · exact h.endFolding (h.withCycle hp)

theorem positioned (hp : I p) : I (positioned p) := by
  unfold Machine.positioned
  split
  · exact h.confirmUnits (h.withCycle (h.holdDrive hp))
  · exact hp

/-! ### Starting a cycle -/

theorem beginCycle {r : SleeperRecord} (hp : I p) : I (beginCycle p r) :=
  h.testStopPoint (h.withCycle (h.writeTargets (h.startRecord hp)))

theorem giveMoveStart {n : Nat} (hp : I p) : I (giveMoveStart p n) := by
  unfold Machine.giveMoveStart
  split
  · exact hp
  · next t _ =>
    have := h.moveStart (t := t) hp
    split
    · next q hq => exact h.positioned (by rw [hq] at this; exact this)
    · next q hq => rw [hq] at this; exact this

theorem startCycle {r : SleeperRecord} (hp : I p) : I (startCycle p r) := h.giveMoveStart (h.beginCycle hp)

theorem startEvent (hp : I p) : I (startEvent p) := by
  unfold Machine.startEvent
  split
  · exact hp
  · split
    · exact hp
    · split
      · exact h.startCycle hp
      · exact hp

theorem renewAndStart (hp : I p) : I (renewAndStart p) := by
  have := h.renewInPosition hp
  unfold Machine.renewAndStart
  split
  · next q hq => exact h.startEvent (by rw [hq] at this; exact this)
  · next q hq => rw [hq] at this; exact this

/-! ### Stops, faults and lockout -/

theorem addCause {c : Cause} {n : Option Nat} (hp : I p) : I (addCause p c n) := by
  unfold Machine.addCause
  split
  · exact hp
  · exact h.event _ _ (h.withCycle hp)

theorem enterLockout {c : Cause} {n : Option Nat} (hp : I p) : I (enterLockout p c n) := h.event _ _ (h.withCycle hp)

theorem afterLockoutDepth (hp : I p) : I (afterLockoutDepth p) := by
  unfold Machine.afterLockoutDepth
  split
  · exact h.withCycle hp
  · exact hp

theorem startLockoutRaise (hp : I p) : I (startLockoutRaise p) := h.afterLockoutDepth (h.withCycle hp)

theorem dropCurrent (hp : I p) : I (dropCurrent p) := h.withCycle hp

theorem failCurrent {c : FailureCause} (hp : I p) : I (failCurrent p c) := by
  unfold Machine.failCurrent
  split
  · exact hp
  · exact h.finishRecord hp

theorem putBackCurrent (hp : I p) : I (putBackCurrent p) := by
  unfold Machine.putBackCurrent
  split
  · exact hp
  · exact h.renewInPosition (h.putBackRecord hp)

theorem travelFault (hp : I p) : I (travelFault p) :=
  h.enterLockout (h.dropCurrent (h.failCurrent (h.releaseDrive (h.startLockoutRaise (h.withCycle hp)))))

theorem stuckFault (hp : I p) : I (stuckFault p) :=
  h.enterLockout (h.dropCurrent (h.failCurrent (h.releaseDrive (h.withCycle hp))))

theorem abandonCycle (hp : I p) : I (abandonCycle p) :=
  h.withCycle (h.dropCurrent (h.putBackCurrent (h.releaseDrive (h.withCycle hp))))

theorem cycleMoving (hp : I p) : I (cycleMoving p) := by
  unfold Machine.cycleMoving
  split
  · exact hp
  · exact h.abandonCycle hp
  · split
    · exact h.enterRaising (h.withCycle hp)
    · exact h.travelFault hp
  · split
    · exact h.enterRaising (h.withCycle hp)
    · exact h.travelFault hp
  · split
    · exact h.withCycle hp
    · exact h.travelFault hp
  · split
    · exact hp
    · exact h.travelFault hp
  · split
    · exact hp
    · simp only
      split
      · exact h.startLockoutRaise (h.addCause hp)
      · exact h.addCause hp

theorem stopCycle (hp : I p) : I (stopCycle p) := by
  unfold Machine.stopCycle
  split
  · exact h.abandonCycle hp
  · split
    · exact h.enterRaising (h.withCycle hp)
    · exact hp
  · split
    · exact h.enterRaising (h.withCycle hp)
    · exact hp
  · split
    · exact h.withCycle hp
    · exact hp
  · exact hp

theorem cycleEstop (hp : I p) : I (cycleEstop p) := by
  have h1 : I (stopDrive (p.withCycle { p.cycle with
    vertical := noVertical, squeeze := noSqueeze, fold := noArms, phaseTimer := none, lockoutRaise := false })) :=
    h.withDrive (h.withCycle hp)
  unfold Machine.cycleEstop
  simp only
  split <;> split
  · exact h.addCause (h.dropCurrent (h.failCurrent h1))
  · exact h.enterLockout (h.dropCurrent (h.failCurrent h1))
  · exact h.addCause (h.dropCurrent (h.putBackCurrent h1))
  · exact h.enterLockout (h.dropCurrent (h.putBackCurrent h1))

/-! ### Samples and the end of the release -/

theorem depthSample {u : TampUnit} (hp : I p) : I (depthSample u p) := by
  unfold Machine.depthSample
  split
  · exact h.afterDepth (fun _ => h.enterPenetrating) (h.reachDepthOf hp)
  · split
    · simp only
      split
      · exact h.endRaise (fun _ => h.enterPenetrating) (h.withCycle hp)
      · exact h.withCycle hp
    · exact hp
  · apply h.afterLockoutDepth
    split
    · exact h.withCycle hp
    · exact hp
  · exact hp

theorem pressureSample {ch : Channel} (hp : I p) : I (pressureSample ch p) := by
  unfold Machine.pressureSample
  split
  · exact h.afterSqueeze (fun _ => h.enterPenetrating) (h.endSqueezeOf hp)
  · exact hp

theorem cycleReleaseEnd {r : PerAxis (Option Int)} (hp : I p) : I (cycleReleaseEnd p r) := by
  unfold Machine.cycleReleaseEnd
  split
  · simp only
    cases p.cycle.current with
    | none => exact h.withCycle (h.dropCurrent hp)
    | some n => exact h.withCycle (h.dropCurrent (h.finishRecord hp))
  · exact hp

theorem driveSample {ch : Channel} (hp : I p) : I (driveSample ch p) := by
  unfold Machine.driveSample
  split
  · exact hp
  · next x _ =>
    have := h.updateAxis (x := x) hp
    split
    · next q hq => exact h.positioned (by rw [hq] at this; exact this)
    · next q hq => rw [hq] at this; exact this

theorem cycleSample {ch : Channel} (hp : I p) : I (cycleSample ch p) := by
  unfold Machine.cycleSample
  split
  · exact h.depthSample hp
  · split
    · exact h.pressureSample hp
    · exact hp

end Closed

end Sys2Proof.Machine
end

