-- ==== Sys2Proof/Laws/Layout.lean ====
section
/-! SUPPORT. The lengths of fields written into bytes (R175) and of the parts of a sleeper record (R192). -/

namespace Sys2Proof.Machine
open Sys2Proof

@[simp] theorem writeInt_length (n : Nat) (x : Int) : (writeInt n x).length = n := by
  induction n generalizing x with
  | zero => rfl
  | succ n ih => simp only [writeInt, List.length_cons, ih]

/-- R175: an optional field has its presence code byte and its own bytes, present or absent. -/
@[simp] theorem writeOptional_length (n : Nat) (v : Option Int) : (writeOptional n v).length = n + 1 := by
  cases v <;> simp [writeOptional]

/-- R192: bytes 21 to 31. -/
@[simp] theorem targetBytes_length (t : Option Targets) : (targetBytes t).length = 11 := by
  cases t <;> simp only [targetBytes, List.length_append, writeInt_length]

/-- R192: bytes 32 to 60. -/
@[simp] theorem resultBytes_length (r : Option CycleResult) : (resultBytes r).length = 29 := by
  cases r with
  | none => rfl
  | some r =>
    simp only [resultBytes, List.length_append, List.length_flatMap, List.length_cons, List.map_cons, List.map_nil,
      List.sum_cons, List.sum_nil, List.length_nil, writeInt_length]
    rfl

end Sys2Proof.Machine
end

