-- ==== Sys2Proof/Laws/Phases.lean ====
section
/-! SUPPORT. The four units and the phases of an insertion: what is asked of every unit, what the end of a squeeze does, and
that the bound of the insertions begun within one event does not matter (R157 to R159). -/

namespace Sys2Proof.Machine
open Sys2Proof Sys2Proof.Safety

theorem PerUnit.get_make {α : Type} (f : TampUnit → α) (u : TampUnit) : (PerUnit.make f).get u = f u := by
  cases u <;> rfl

/-- Four values are equal when each unit's are. -/
theorem PerUnit.eq_of_get {α : Type} {a b : PerUnit α} (h : ∀ u, a.get u = b.get u) : a = b := by
  have h1 := h .lo; have h2 := h .li; have h3 := h .ri; have h4 := h .ro
  cases a; cases b; simp_all [PerUnit.get]

theorem allUnits_all {f : TampUnit → Bool} : allUnits.all f = true ↔ ∀ u, f u = true := by
  simp only [allUnits, List.all_cons, List.all_nil, Bool.and_eq_true, Bool.and_true]
  exact ⟨fun ⟨h1, h2, h3, h4⟩ u => by cases u <;> assumption, fun h => ⟨h _, h _, h _, h _⟩⟩

theorem unitClear_eq (p : Part) (u : TampUnit) : unitClear p u = decide (unitDepth p u ≤ 200) := rfl

theorem lowered_eq (p : Part) (u : TampUnit) : lowered p u = decide ((p.cycle.units.get u).role = .lowered) := rfl

/-- R149: every unit is clear when no depth is below the clear height. -/
theorem allClear_iff (p : Part) : allClear p = true ↔ ∀ u, unitDepth p u ≤ 200 := by
  rw [allClear, allUnits_all]; simp [unitClear_eq]

/-- What is asked of every LOWERED unit. -/
theorem everyLowered_iff (p : Part) (f : UnitState → Bool) :
    everyLowered p f = true ↔ ∀ u, (p.cycle.units.get u).role = .lowered → f (p.cycle.units.get u) = true := by
  rw [everyLowered, allUnits_all]
  exact forall_congr' fun u => by simp [lowered_eq, Part.unit, imp_iff_not_or]

theorem Part.withCycle_withCycle (p : Part) (c d : Cycle) : (p.withCycle c).withCycle d = p.withCycle d := rfl

theorem allClear_withCycle (p : Part) (c : Cycle) : allClear (p.withCycle c) = allClear p := rfl

theorem raiseDemands_withCycle (p : Part) (c : Cycle) : raiseDemands (p.withCycle c) = raiseDemands p := rfl

/-- R158, R159: with the last squeeze ended the cycle goes to RAISING. -/
theorem endSqueezing_goesToRaising (q : Part) : GoesToRaising q (endSqueezing enterPenetrating q) := by
  unfold GoesToRaising endSqueezing enterRaisingWith
  refine ⟨fun ⟨w, hw⟩ => ?_, fun hc v hv => ?_⟩
  · have h : allClear q = false := by
      rw [Bool.eq_false_iff]
      exact fun h => by have := (allClear_iff q).1 h w; omega
    refine ⟨raiseDemands q,
      fun w => by simp only [raiseDemands, unitClear_eq, PerUnit.get_make, decide_eq_true_eq], ?_⟩
    simp only [allClear_withCycle, h, Part.withCycle_withCycle, raiseDemands_withCycle]
    rfl
  · have h : allClear q = true := (allClear_iff q).2 hc
    simp only [Part.withCycle_cycle, allClear_withCycle, Part.withCycle_withCycle, raiseDemands_withCycle, h, if_true,
      endRaise, cycleInsertions, hv, Option.map_some, Option.getD_some]
    rfl

/-- An entry to SQUEEZING begins a further insertion, if at all, with one insertion more done and some still to do, so
what matters of the way it goes on is what it does then. -/
theorem enterSqueezingWith_congr {f g : Part → Part} (q : Part)
    (h : ∀ r : Part, r.cycle.values = q.cycle.values → r.cycle.insertionsDone = q.cycle.insertionsDone + 1 →
      r.cycle.insertionsDone < cycleInsertions r → f r = g r) : enterSqueezingWith f q = enterSqueezingWith g q := by
  simp only [enterSqueezingWith, afterSqueeze]
  split
  · simp only [endSqueezing, enterRaisingWith]
    split
    · simp only [endRaise]
      split
      · next h2 => exact h _ rfl rfl h2.2
      · rfl
    · rfl
  · rfl

/-- R157: any two bounds that reach the cycle's insertions give the same. -/
theorem penetrateBy_congr (n m : Nat) : ∀ p : Part, cycleInsertions p ≤ n + p.cycle.insertionsDone →
    cycleInsertions p ≤ m + p.cycle.insertionsDone → 1 ≤ n → 1 ≤ m → penetrateBy n p = penetrateBy m p := by
  induction n generalizing m with
  | zero => intro p _ _ h; omega
  | succ n ih =>
    intro p hn hm _ h1
    obtain ⟨m, rfl⟩ : ∃ k, m = k + 1 := ⟨m - 1, by omega⟩
    simp only [penetrateBy, afterDepth]
    split
    · refine enterSqueezingWith_congr _ fun r hv hd hlt => ?_
      have hi : cycleInsertions r = cycleInsertions p := by
        simp only [cycleInsertions, hv]; rfl
      have hd' : r.cycle.insertionsDone = p.cycle.insertionsDone + 1 := hd
      apply ih <;> omega
    · rfl

end Sys2Proof.Machine
end

