-- ==== Sys2Proof/Laws/Requests.lean ====
section
/-! SUPPORT. What an event and the taking of a request can do: one lemma each for eventOf, takeOldest and dealWith, and the
forward form for a request that is taken (R177). -/

namespace Sys2Proof.Machine
open Sys2Proof Sys2Proof.Safety

/-- An event answers a next state, in which only the part can have changed. -/
theorem eventOf_next {s t : State} {f : Part → Part} (h : eventOf s f = .next t) :
    t = s.withPart (if s.part.powered then f s.part else s.part) := by
  simp only [eventOf, Host.Outcome.next.injEq] at h; exact h.symm

theorem eventOf_powered {s : State} {f : Part → Part} (h : s.part.powered = true) :
    eventOf s f = .next (s.withPart (f s.part)) := by simp [eventOf, h]

theorem eventOf_unpowered {s : State} {f : Part → Part} (h : s.part.powered = false) : eventOf s f = .next s := by
  simp [eventOf, h]

/-- The part after a request has left the receive queue and R101 has closed its owner's window. -/
def foundPart (p : Part) (r : Request) (rest : List Request) : Part := closeWindowFor (p.withPort { p.port with rx := rest }) r

/-- The part with a reply appended to the transmit queue. -/
def repliedPart (node : Int) (r : Request) (a : Answer) : Part :=
  a.part.withPort { a.part.port with tx := a.part.port.tx ++ [replyMessage node r a.status a.fields] }

/-- R177: what the taking of a request can do: nothing, or the oldest request leaves the receive queue and is answered, by a
step of the port or by its block. -/
theorem takeOldest_next {accepts : Nat → Bool} {flen : Option Nat}
    {block : Option CorrWindow → Request → Part → Answer} {s t : State}
    (h : takeOldest accepts flen block s = .next t) :
    t = s ∨ ∃ r rest a, s.part.powered = true ∧ s.part.port.rx = r :: rest ∧ s.part.port.tx.length < 8 ∧
      s.part.port.resetPending = false ∧ accepts r.kind = true ∧
      ((∃ st, a = .refuse (foundPart s.part r rest) st) ∨
        (s.part.phase = .ready ∧ r.tooShort = false ∧ flen.getD r.fieldLength = r.fieldLength ∧
          a = block s.part.corr.window r (foundPart s.part r rest))) ∧
      t = s.withPart (repliedPart s.part.store.working.partNode r a) := by
  have h := eventOf_next h
  subst h
  cases hp : s.part.powered with
  | false => left; simp
  | true =>
    simp only [if_true]
    split
    · left; simp
    · next r rest hrx =>
      split
      · next hc =>
        right
        simp only [canTake, Bool.and_eq_true, decide_eq_true_eq, Bool.not_eq_true'] at hc
        refine ⟨r, rest, answerTo (foundPart s.part r rest) r flen (block s.part.corr.window), trivial, hrx, hc.1.1, hc.1.2, hc.2,
          ?_, rfl⟩
        have hph : (foundPart s.part r rest).phase = s.part.phase := by
          simp only [foundPart, closeWindowFor]; split
          · rfl
          · split <;> rfl
        unfold answerTo
        split
        · exact .inl ⟨_, rfl⟩
        · next hs =>
          rw [hph] at hs
          split
          · exact .inl ⟨_, rfl⟩
          · next ht =>
            split
            · exact .inl ⟨_, rfl⟩
            · split
              · exact .inl ⟨_, rfl⟩
              · split
                · exact .inl ⟨_, rfl⟩
                · next hf =>
                  refine .inr ⟨?_, by simpa using ht, not_not.mp hf, rfl⟩
                  cases hq : s.part.phase
                  · exact absurd hq hs
                  · rfl
      · left; simp

theorem takeKind_next {kind flen : Nat} {block : Request → Part → Answer} {s t : State}
    (h : takeKind kind flen block s = .next t) :
    t = s ∨ ∃ r rest a, s.part.powered = true ∧ s.part.port.rx = r :: rest ∧ s.part.port.tx.length < 8 ∧
      s.part.port.resetPending = false ∧ r.kind = kind ∧
      ((∃ st, a = .refuse (foundPart s.part r rest) st) ∨
        (s.part.phase = .ready ∧ r.tooShort = false ∧ r.fieldLength = flen ∧ a = block r (foundPart s.part r rest))) ∧
      t = s.withPart (repliedPart s.part.store.working.partNode r a) := by
  rcases takeOldest_next h with h | ⟨r, rest, a, h1, h2, h3, h4, h5, h6, h7⟩
  · exact .inl h
  · refine .inr ⟨r, rest, a, h1, h2, h3, h4, by simpa using h5, ?_, h7⟩
    rcases h6 with h6 | ⟨h8, h9, h10, h11⟩
    · exact .inl h6
    · exact .inr ⟨h8, h9, h10.symm, h11⟩

theorem takeOpenKind_next {kind : Nat} {block : Request → Part → Answer} {s t : State}
    (h : takeOpenKind kind block s = .next t) :
    t = s ∨ ∃ r rest a, s.part.powered = true ∧ s.part.port.rx = r :: rest ∧ s.part.port.tx.length < 8 ∧
      s.part.port.resetPending = false ∧ r.kind = kind ∧
      ((∃ st, a = .refuse (foundPart s.part r rest) st) ∨
        (s.part.phase = .ready ∧ r.tooShort = false ∧ a = block r (foundPart s.part r rest))) ∧
      t = s.withPart (repliedPart s.part.store.working.partNode r a) := by
  rcases takeOldest_next h with h | ⟨r, rest, a, h1, h2, h3, h4, h5, h6, h7⟩
  · exact .inl h
  · refine .inr ⟨r, rest, a, h1, h2, h3, h4, by simpa using h5, ?_, h7⟩
    rcases h6 with h6 | ⟨h8, h9, _, h11⟩
    · exact .inl h6
    · exact .inr ⟨h8, h9, h11⟩

/-! ### A request that is found changes no more than the receive queue and the window -/

section
variable (p : Part) (r : Request) (rest : List Request)

theorem closeWindowFor_eq : closeWindowFor p r = { p with corr := { p.corr with window := windowKept p r } } := by
  obtain ⟨_, _, _, _, _, _, _, _, _, _, ⟨_, _, _, w⟩, _, _, _, _, _⟩ := p
  cases w with
  | none => rfl
  | some w =>
    by_cases hw : w.owner = r.node ∧ r.kind ≠ 26 ∧ r.kind ≠ 27
    · simp [closeWindowFor, windowKept, Option.filter, hw]
    · simp only [closeWindowFor, windowKept, if_neg hw, Option.filter, decide_eq_false hw, Bool.not_false, if_true]

/-- R101, R177: a request that is found changes no more than the receive queue and the window. -/
theorem foundPart_eq : foundPart p r rest = found p r rest := by
  unfold foundPart; rw [closeWindowFor_eq]; rfl

@[simp] theorem foundPart_powered : (foundPart p r rest).powered = p.powered := by
  rw [foundPart_eq]; rfl
@[simp] theorem foundPart_phase : (foundPart p r rest).phase = p.phase := by
  rw [foundPart_eq]; rfl
@[simp] theorem foundPart_lines : (foundPart p r rest).lines = p.lines := by
  rw [foundPart_eq]; rfl
@[simp] theorem foundPart_travel : (foundPart p r rest).travel = p.travel := by
  rw [foundPart_eq]; rfl
@[simp] theorem foundPart_history : (foundPart p r rest).history = p.history := by
  rw [foundPart_eq]; rfl
@[simp] theorem foundPart_scanner : (foundPart p r rest).scanner = p.scanner := by
  rw [foundPart_eq]; rfl
@[simp] theorem foundPart_queue : (foundPart p r rest).queue = p.queue := by
  rw [foundPart_eq]; rfl
@[simp] theorem foundPart_plan : (foundPart p r rest).plan = p.plan := by
  rw [foundPart_eq]; rfl
@[simp] theorem foundPart_ctxH : (foundPart p r rest).ctxH = p.ctxH := by
  rw [foundPart_eq]; rfl
@[simp] theorem foundPart_ctxV : (foundPart p r rest).ctxV = p.ctxV := by
  rw [foundPart_eq]; rfl
@[simp] theorem foundPart_trim : (foundPart p r rest).trim = p.trim := by
  rw [foundPart_eq]; rfl
@[simp] theorem foundPart_drive : (foundPart p r rest).drive = p.drive := by
  rw [foundPart_eq]; rfl
@[simp] theorem foundPart_cycle : (foundPart p r rest).cycle = p.cycle := by
  rw [foundPart_eq]; rfl
@[simp] theorem foundPart_store : (foundPart p r rest).store = p.store := by
  rw [foundPart_eq]; rfl
@[simp] theorem foundPart_port : (foundPart p r rest).port = { p.port with rx := rest } := by
  rw [foundPart_eq]; rfl
@[simp] theorem foundPart_entries : (foundPart p r rest).corr.entries = p.corr.entries := by
  rw [foundPart_eq]; rfl
@[simp] theorem foundPart_base : (foundPart p r rest).corr.base = p.corr.base := by
  rw [foundPart_eq]; rfl
@[simp] theorem foundPart_spacing : (foundPart p r rest).corr.spacing = p.corr.spacing := by
  rw [foundPart_eq]; rfl
theorem foundPart_window : (foundPart p r rest).corr.window = windowKept p r := by rw [foundPart_eq]; rfl
end

section
variable (node : Int) (r : Request) (a : Answer)
theorem repliedPart_offPort : (repliedPart node r a).offPort = a.part.offPort := rfl
theorem repliedPart_port : (repliedPart node r a).port =
    { a.part.port with tx := a.part.port.tx ++ [replyMessage node r a.status a.fields] } := rfl
end

/-! ### The forward form -/

/-- R177: with the part READY and the request whole, in its catalogue and within its class, the block decides it. -/
theorem takeOldest_taken {accepts : Nat → Bool} {flen : Option Nat}
    {block : Option CorrWindow → Request → Part → Answer} {s : State} {r : Request} {rest : List Request} {c : RequestClass}
    (hp : s.part.powered = true) (hr : s.part.phase = .ready) (hx : s.part.port.resetPending = false)
    (ht : s.part.port.tx.length < 8) (hq : s.part.port.rx = r :: rest) (ha : accepts r.kind = true)
    (hs : r.tooShort = false) (hk : classOfKind r.kind = some c) (he : entitled s.part c r.node = true)
    (hf : flen.getD r.fieldLength = r.fieldLength) :
    takeOldest accepts flen block s = .next (s.withPart (repliedPart s.part.store.working.partNode r
      (block s.part.corr.window r (foundPart s.part r rest)))) := by
  have he' : entitled (foundPart s.part r rest) c r.node = true := by
    cases c <;> simp_all [entitled]
  have hc : (canTake s.part && accepts r.kind) = true := by simp [canTake, ht, hx, ha]
  rw [takeOldest, eventOf_powered hp, hq]
  simp only [hc, if_true]
  change Host.Outcome.next (s.withPart (repliedPart _ r
    (answerTo (foundPart s.part r rest) r flen (block s.part.corr.window)))) = _
  congr 3
  unfold answerTo
  simp [hr, hs, hk, he', hf]

/-! ### The forward form, in the terms of the claims -/

theorem tooShort_eq_false {s : State} {r : Request} {rest : List Request} (h : Takes s r rest) : r.tooShort = false := by
  obtain ⟨_, _, h2, h3⟩ := h
  simp only [Request.tooShort, decide_eq_false_iff_not]; omega

/-- R177: a request that its block decides, of a kind with fields of a fixed length. -/
theorem takeKind_taken {kind flen : Nat} {block : Request → Part → Answer} {s : State} {r : Request} {rest : List Request}
    {c : RequestClass} (h : Takes s r rest) (hk : r.kind = kind) (hc : classOfKind kind = some c)
    (he : entitled s.part c r.node = true) (hf : r.fieldLength = flen) :
    takeKind kind flen block s =
      .next (s.withPart (repliedPart s.part.store.working.partNode r (block r (found s.part r rest)))) := by
  rw [← foundPart_eq]
  exact takeOldest_taken h.1.1 h.2.1 h.1.2.1 h.1.2.2.1 h.1.2.2.2 (by simp [hk]) (tooShort_eq_false h) (by rw [hk, hc]) he
    (by simp [hf])

/-- R177: a request that its block decides, of a kind that places its own length check. -/
theorem takeOpenKind_taken {kind : Nat} {block : Request → Part → Answer} {s : State} {r : Request} {rest : List Request}
    {c : RequestClass} (h : Takes s r rest) (hk : r.kind = kind) (hc : classOfKind kind = some c)
    (he : entitled s.part c r.node = true) :
    takeOpenKind kind block s =
      .next (s.withPart (repliedPart s.part.store.working.partNode r (block r (found s.part r rest)))) := by
  rw [← foundPart_eq]
  exact takeOldest_taken h.1.1 h.2.1 h.1.2.1 h.1.2.2.1 h.1.2.2.2 (by simp [hk]) (tooShort_eq_false h) (by rw [hk, hc]) he rfl

theorem read_taken {kind flen : Nat} {block : Request → Part → Answer} {s : State} {r : Request} {rest : List Request}
    (h : AsksRead s r rest kind) (hc : classOfKind kind = some .read) (hf : r.fieldLength = flen) :
    takeKind kind flen block s =
      .next (s.withPart (repliedPart s.part.store.working.partNode r (block r (found s.part r rest)))) :=
  takeKind_taken h.1 h.2 hc rfl hf

theorem data_taken {kind flen : Nat} {block : Request → Part → Answer} {s : State} {r : Request} {rest : List Request}
    (h : AsksData s r rest kind) (hc : classOfKind kind = some .data) (hf : r.fieldLength = flen) :
    takeKind kind flen block s =
      .next (s.withPart (repliedPart s.part.store.working.partNode r (block r (found s.part r rest)))) :=
  takeKind_taken h.1 h.2.1 hc (by simp [entitled, h.2.2]) hf

theorem control_taken {kind flen : Nat} {block : Request → Part → Answer} {s : State} {r : Request} {rest : List Request}
    (h : AsksControl s r rest kind) (hc : classOfKind kind = some .control) (hf : r.fieldLength = flen) :
    takeKind kind flen block s =
      .next (s.withPart (repliedPart s.part.store.working.partNode r (block r (found s.part r rest)))) :=
  takeKind_taken h.1 h.2.1 hc (by simp [entitled, h.2.2]) hf

section
variable (s : State) (q : Part) (r : Request) (rest : List Request) (fs : List Byte)

theorem repliedPart_ok :
    s.withPart (repliedPart s.part.store.working.partNode r (.ok q fs)) = replied s q r 0 fs := rfl

theorem repliedPart_clamped :
    s.withPart (repliedPart s.part.store.working.partNode r ⟨q, .clamped, fs⟩) = replied s q r 1 fs := rfl

/-- R178: a refusal carries no fields. -/
theorem repliedPart_refuse (st : Status) :
    s.withPart (repliedPart s.part.store.working.partNode r (.refuse q st)) = replied s q r st.code [] := by
  cases st <;> rfl
end

end Sys2Proof.Machine
end

