-- ==== Sys2Proof/Laws/Port.lean ====
section
/-! SUPPORT. What a hand-on of reports can do to the port: only the transmit queue grows, by admitted reports, while two
places are free; the report sequence counts them; and the pending reports change. -/

namespace Sys2Proof.Machine
open Sys2Proof

/-- The moves of a hand-on: pending reports change, or a report is admitted while two places are free and no PART RESET
waits. -/
inductive PortMoves (a : Port) : Port → Prop where
  | refl : PortMoves a a
  | hold {b : Port} (halt : Option HaltReport) (stop : Option StopReport) (events : PendingEvents) :
      PortMoves a b → PortMoves a { b with halt := halt, stop := stop, events := events }
  | grow {b : Port} (m : Message) :
      PortMoves a b → b.tx.length + 2 ≤ 8 → b.resetPending = false →
      PortMoves a { b with tx := b.tx ++ [m], seq := (b.seq + 1) % 256 }

namespace PortMoves
variable {a b c : Port}

theorem trans (h1 : PortMoves a b) (h2 : PortMoves b c) : PortMoves a c := by
  induction h2 with
  | refl => exact h1
  | hold halt stop events _ ih => exact .hold halt stop events ih
  | grow m _ ht hr ih => exact .grow m ih ht hr

/-- A hand-on keeps the link, the receive queue, the authority holder, OVERRUN and a waiting PART RESET. -/
theorem kept (h : PortMoves a b) :
    b.link = a.link ∧ b.rx = a.rx ∧ b.authority = a.authority ∧ b.overrun = a.overrun ∧
      b.resetPending = a.resetPending := by
  induction h with
  | refl => simp
  | hold _ _ _ _ ih => exact ih
  | grow _ _ _ _ ih => exact ih

/-- A hand-on appends messages, and fills no more than seven places. -/
theorem tx (h : PortMoves a b) :
    (∃ ms, b.tx = a.tx ++ ms) ∧ (b.tx.length ≤ a.tx.length ∨ b.tx.length ≤ 7) := by
  induction h with
  | refl => exact ⟨⟨[], by simp⟩, .inl (Nat.le_refl _)⟩
  | hold _ _ _ _ ih => exact ih
  | grow m _ ht _ ih =>
    obtain ⟨⟨ms, hms⟩, _⟩ := ih
    refine ⟨⟨ms ++ [m], by simp [hms]⟩, .inr ?_⟩
    simp only [List.length_append, List.length_cons, List.length_nil]; omega

theorem seq (h : PortMoves a b) (ha : a.seq ≤ 255) : b.seq ≤ 255 := by
  induction h with
  | refl => exact ha
  | hold _ _ _ _ ih => exact ih
  | grow _ _ _ _ _ => show (_ + 1) % 256 ≤ 255; omega
end PortMoves

theorem admitSource_moves {p : Part} (s : ReportSource) (hc : canAdmit p = true) :
    PortMoves p.port (admitSource p s).port := by
  simp only [canAdmit, Bool.and_eq_true, decide_eq_true_eq, Bool.not_eq_true'] at hc
  cases s with
  | halt =>
    simp only [admitSource, admitHalt]
    split
    · exact .refl
    · exact .hold none p.port.stop p.port.events (.grow _ .refl hc.1 hc.2)
  | stopPoint =>
    simp only [admitSource, admitStop]
    split
    · exact .refl
    · exact .hold p.port.halt none p.port.events (.grow _ .refl hc.1 hc.2)
  | event k =>
    simp only [admitSource, admitEvent]
    split
    · exact .refl
    · exact .hold p.port.halt p.port.stop _ (.grow _ .refl hc.1 hc.2)

theorem admitWaiting_moves (n : Nat) (p : Part) : PortMoves p.port (admitWaiting n p).port := by
  induction n generalizing p with
  | zero => exact .refl
  | succ n ih =>
    unfold admitWaiting
    split
    · next hc =>
      split
      · exact .refl
      · exact (admitSource_moves _ hc).trans (ih _)
    · exact .refl

theorem afterHandOn_moves (p : Part) : PortMoves p.port (afterHandOn p).port := admitWaiting_moves 8 p

theorem handEvent_moves (p : Part) (e : Event) : PortMoves p.port (handEvent p e).port :=
  PortMoves.trans (b := (holdEvent p e).port) (.hold p.port.halt p.port.stop _ .refl) (afterHandOn_moves _)

theorem handHalt_moves (p : Part) (r : HaltReport) : PortMoves p.port (handHalt p r).port :=
  PortMoves.trans (b := { p.port with halt := some r }) (.hold (some r) p.port.stop p.port.events .refl)
    (afterHandOn_moves { p with port := { p.port with halt := some r } })

theorem handStop_moves (p : Part) (r : StopReport) : PortMoves p.port (handStop p r).port :=
  PortMoves.trans (b := { p.port with stop := some r }) (.hold p.port.halt (some r) p.port.events .refl)
    (afterHandOn_moves { p with port := { p.port with stop := some r } })

/-- What can become of the port in any operation of the queue, the drive and the cycle controller. -/
theorem closed_moves (a : Port) : Closed fun q => PortMoves a q.port where
  queue _ _ h := h
  drive _ _ h := h
  cycle _ _ h := h
  event p e h := h.trans (handEvent_moves p e)
  halt p r h := h.trans (handHalt_moves p r)
  stop p r h := h.trans (handStop_moves p r)

/-! ### Operations of the scanner and the plan contexts -/

theorem takeCell_moves (lines : ScanLines) (p : Part) (x : Int) : PortMoves p.port (takeCell lines p x).port := by
  unfold takeCell
  simp only
  split
  · exact .refl
  · exact (closed_moves p.port).recordCandidate .refl

theorem scannerAdvance_moves (lines : ScanLines) (p : Part) : PortMoves p.port (scannerAdvance lines p).port := by
  have fold : ∀ (xs : List Int) (q : Part), PortMoves q.port (xs.foldl (takeCell lines) q).port := by
    intro xs
    induction xs with
    | nil => exact fun _ => .refl
    | cons x xs ih => exact fun q => (takeCell_moves lines q x).trans (ih _)
  unfold scannerAdvance
  split
  · simp only
    split
    · exact fold _ { p with scanner := { p.scanner with front := some (scannerPoint p) } }
    · exact .refl
  · exact .refl

section
variable (p : Part) (i : ContextId)

theorem setCtx_port (c : Context) : (p.setCtx i c).port = p.port := by simp
theorem setWalk_port (c : Context) (w : Walk) : (p.setWalk i c w).port = p.port := by simp [Part.setWalk]

theorem handPlanState_moves (slot : Option Nat) : PortMoves p.port (handPlanState p i slot).port := handEvent_moves p _

theorem contextDies_moves (c : Context) (w : Walk) (code : DeadCode) (slot : Nat) (held : Option SegmentRecord) :
    PortMoves p.port (contextDies p i c w code slot held).port := by
  unfold contextDies
  have := handPlanState_moves (p.setWalk i { c with state := .dead, dead := some (code, slot), armed := none, current := held, previous := held } w) i (some slot)
  rwa [setWalk_port] at this

theorem segmentEnd_moves (r : SegmentRecord) : PortMoves p.port (segmentEnd p i r).port := by
  unfold segmentEnd
  simp only
  split
  · rw [setCtx_port]; exact .refl
  · split
    · refine PortMoves.trans ?_ (handPlanState_moves _ _ _)
      rw [setCtx_port]; exact .refl
    · split
      · rw [setWalk_port]; exact .refl
      · exact contextDies_moves { p with plan := _ } _ _ _ _ _ _

theorem catchUpBy_moves (n : Nat) : PortMoves p.port (catchUpBy i n p).port := by
  induction n generalizing p with
  | zero => exact .refl
  | succ n ih =>
    unfold catchUpBy
    split
    · split
      · exact (segmentEnd_moves _ _ _).trans (ih _)
      · exact .refl
    · exact .refl

theorem catchUp_moves : PortMoves p.port (catchUp p i).port := by
  unfold catchUp
  split
  · exact .refl
  · exact catchUpBy_moves _ _ _

theorem startContext_moves (first : Nat) (start : Int) : PortMoves p.port (startContext p i first start).port := by
  unfold startContext
  simp only
  split
  · next w k shadow _ =>
    refine PortMoves.trans ?_ (catchUp_moves _ _)
    refine PortMoves.trans ?_ (handPlanState_moves _ _ _)
    rw [setWalk_port]; exact .refl
  · exact contextDies_moves _ _ _ _ _ _ _

theorem contextAdvance_moves : PortMoves p.port (contextAdvance i p).port := by
  unfold contextAdvance
  simp only
  split
  · split
    · exact .refl
    · split
      · exact startContext_moves _ _ _ _
      · exact .refl
  · exact catchUp_moves _ _
  · exact .refl

theorem wakeContext_moves : PortMoves p.port (wakeContext p i).port := by
  unfold wakeContext
  simp only
  split
  · exact .refl
  · split
    · exact .refl
    · split
      · refine PortMoves.trans ?_ (catchUp_moves _ _)
        refine PortMoves.trans ?_ (handPlanState_moves _ _ _)
        rw [setWalk_port]; exact .refl
      · exact contextDies_moves _ _ _ _ _ _ _

theorem stopContext_moves : PortMoves p.port (stopContext p i).port := by
  unfold stopContext
  simp only
  refine PortMoves.trans ?_ (handPlanState_moves _ _ _)
  rw [setCtx_port]; exact .refl
end

end Sys2Proof.Machine
end

