-- ==== Sys2Proof/Laws/Table.lean ====
section
/-! SUPPORT. The numbered stores (plan memory, R56, and the correction table, R95): what is read after a write, and that a write
keeps the canonical form. -/

namespace Sys2Proof.Machine
open Sys2Proof

/-- Every number of a store lies above a bound. -/
def Table.above {α : Type} (b : Nat) (t : Table α) : Prop := ∀ x ∈ t, b < x.1

/-- The canonical form of a store with a first entry. -/
theorem Table.wf_cons {α : Type} [DecidableEq α] (dflt : α) (i : Nat) (v : α) (t : Table α) :
    Table.wf dflt ((i, v) :: t) = true ↔ v ≠ dflt ∧ Table.above i t ∧ Table.wf dflt t = true := by
  induction t generalizing i v with
  | nil => simp [Table.wf, Table.above]
  | cons y t ih =>
    obtain ⟨j, w⟩ := y
    have ih' := ih j w
    rw [Table.wf, Bool.and_eq_true, Bool.and_eq_true, decide_eq_true_iff, decide_eq_true_iff, and_assoc, ih']
    constructor
    · rintro ⟨hv, hij, hw, ha, ht⟩
      refine ⟨hv, fun x hx => ?_, hw, ha, ht⟩
      rcases List.mem_cons.1 hx with rfl | hx
      · exact hij
      · exact Nat.lt_trans hij (ha x hx)
    · rintro ⟨hv, ha, hw, hb, ht⟩
      exact ⟨hv, ha (j, w) (List.mem_cons_self ..), hw, hb, ht⟩

/-- A number below every listed one reads as an unlisted number does. -/
theorem Table.read_of_above {α : Type} (dflt : α) (t : Table α) (k : Nat) (h : Table.above k t) :
    Table.read dflt t k = dflt := by
  induction t with
  | nil => rfl
  | cons y t ih =>
    obtain ⟨j, w⟩ := y
    have hj : k < j := h (j, w) (List.mem_cons_self ..)
    rw [Table.read, if_neg (by omega), ih fun x hx => h x (List.mem_cons_of_mem _ hx)]

/-- A write changes what is read at its own number and nowhere else. -/
theorem Table.read_write {α : Type} [DecidableEq α] (dflt : α) (t : Table α) (k j : Nat) (v : α)
    (h : Table.wf dflt t = true) :
    Table.read dflt (Table.write dflt t k v) j = if j = k then v else Table.read dflt t j := by
  induction t with
  | nil =>
    simp only [Table.write]
    split <;> simp only [Table.read]
    · simp_all
    · by_cases hjk : j = k
      · simp [hjk]
      · simp [hjk, Ne.symm hjk]
  | cons y t ih =>
    obtain ⟨i, w⟩ := y
    obtain ⟨-, ha, ht⟩ := (Table.wf_cons dflt i w t).1 h
    simp only [Table.write]
    split
    · next hlt =>
      split
      · next hv =>
        subst hv
        split
        · next hjk =>
          subst hjk
          refine Table.read_of_above _ _ _ fun x hx => ?_
          rcases List.mem_cons.1 hx with rfl | hx
          · exact hlt
          · exact Nat.lt_trans hlt (ha x hx)
        · rfl
      · simp only [Table.read]
        by_cases hjk : j = k
        · simp [hjk]
        · simp [hjk, Ne.symm hjk]
    · split
      · next hki =>
        subst hki
        split
        · next hv =>
          subst hv
          simp only [Table.read]
          by_cases hjk : j = k
          · subst hjk; simp [Table.read_of_above _ _ _ ha]
          · simp [hjk, Ne.symm hjk]
        · simp only [Table.read]
          by_cases hjk : j = k
          · simp [hjk]
          · simp [hjk, Ne.symm hjk]
      · next hki =>
        simp only [Table.read, ih ht]
        by_cases hij : i = j
        · subst hij; simp [Ne.symm hki]
        · simp [hij]

/-- A write adds no number but its own. -/
theorem Table.mem_write {α : Type} [DecidableEq α] (dflt : α) (t : Table α) (k : Nat) (v : α) (x : Nat × α)
    (h : x ∈ Table.write dflt t k v) : x ∈ t ∨ x = (k, v) := by
  induction t with
  | nil => simp only [Table.write] at h; split at h <;> simp_all
  | cons y t ih =>
    obtain ⟨i, w⟩ := y
    simp only [Table.write] at h
    split at h
    · split at h <;> simp_all [or_comm]
    · split at h
      · split at h <;> simp_all [or_comm]
        rcases h with h | h <;> simp_all
      · rcases List.mem_cons.1 h with h | h
        · simp [h]
        · rcases ih h with h | h <;> simp [h]

/-- A write keeps the canonical form. -/
theorem Table.wf_write {α : Type} [DecidableEq α] (dflt : α) (t : Table α) (k : Nat) (v : α) (h : Table.wf dflt t = true) :
    Table.wf dflt (Table.write dflt t k v) = true := by
  induction t with
  | nil =>
    simp only [Table.write]
    split
    · rfl
    · next hv => exact (Table.wf_cons ..).2 ⟨hv, fun x hx => (by simp at hx), rfl⟩
  | cons y t ih =>
    obtain ⟨i, w⟩ := y
    obtain ⟨hw, ha, ht⟩ := (Table.wf_cons dflt i w t).1 h
    simp only [Table.write]
    split
    · next hlt =>
      split
      · exact h
      · next hv =>
        refine (Table.wf_cons ..).2 ⟨hv, fun x hx => ?_, h⟩
        rcases List.mem_cons.1 hx with rfl | hx
        · exact hlt
        · exact Nat.lt_trans hlt (ha x hx)
    · next hlt =>
      split
      · next hki =>
        subst hki
        split
        · exact ht
        · next hv => exact (Table.wf_cons ..).2 ⟨hv, ha, ht⟩
      · next hki =>
        refine (Table.wf_cons ..).2 ⟨hw, fun x hx => ?_, ih ht⟩
        rcases Table.mem_write _ _ _ _ _ hx with hx | rfl
        · exact ha x hx
        · show i < k
          omega

/-- R56: a slot that is written reads back, and no other slot changes. -/
theorem slotAt_setSlot (plan : Table Slot) (k j : Nat) (v : Slot) (h : Table.wf emptySlot plan = true) :
    slotAt (setSlot plan k v) j = if j = k then v else slotAt plan j := Table.read_write _ _ _ _ _ h

/-- R56: writing a slot keeps plan memory in canonical form. -/
theorem setSlot_wf (plan : Table Slot) (k : Nat) (v : Slot) (h : Table.wf emptySlot plan = true) :
    Table.wf emptySlot (setSlot plan k v) = true := Table.wf_write _ _ _ _ h

/-- R95: an entry that is written reads back, and no other entry changes. -/
theorem entryAt_setEntry (es : Table CorrEntry) (k j : Nat) (v : CorrEntry) (h : Table.wf unsetEntry es = true) :
    entryAt (setEntry es k v) j = if j = k then v else entryAt es j := Table.read_write _ _ _ _ _ h

/-- R95: writing an entry keeps the correction table in canonical form. -/
theorem setEntry_wf (es : Table CorrEntry) (k : Nat) (v : CorrEntry) (h : Table.wf unsetEntry es = true) :
    Table.wf unsetEntry (setEntry es k v) = true := Table.wf_write _ _ _ _ h

end Sys2Proof.Machine
end

