-- ==== Sys2Proof/Tests/Slice0.lean ====
section
/-! SUPPORT. Tests: the smoke tests of the well-formedness checks, the worked cases of the manual, and, for each statement that
has hypotheses, a witness that meets them, clause by clause. -/

namespace Sys2Proof.Tests
open Sys2Proof Sys2Proof.Machine Sys2Proof.Safety

/-! ### Small states -/

/-- The part right after reset, READY and in IDLE, with the origin SET at 0. -/
def ready : Part := { State.reset.part with
  phase := .ready
  travel := { State.reset.part.travel with originState := .set }
  scanner := { State.reset.part.scanner with active := true, front := some 9000 }
  cycle := { State.reset.part.cycle with phase := .idle, causes := noCauses } }

/-- A part with nothing waiting. -/
def st (p : Part) : State := { part := p, pending := [] }

/-- A request of a kind, from a node, with its fields. -/
def req (kind : Nat) (node : Int) (fs : List Byte) : Request :=
  { kind := kind, node := node, data := 5 :: byte fs.length :: fs }

/-- A part whose oldest request is r. -/
def ask (p : Part) (r : Request) : State := st { p with port := { p.port with rx := [r] } }

/-- A part in a cycle phase. -/
def inPhase (p : Part) (ph : CyclePhase) : Part := { p with cycle := { p.cycle with phase := ph } }

/-- A part with the copy being saved. -/
def saving (p : Part) : Part :=
  { p with store := { p.store with save := some p.store.working.snapshot, status := .saving } }

/-- A part that moves. -/
def movingPart (p : Part) : Part := { p with
  travel := { p.travel with motion := .moving, standstillTimer := some 200 }
  queue := { p.queue with motion := .moving }
  cycle := { p.cycle with motion := .moving } }

/-- A part whose depth channels read a number of counts (512 units per 1024 counts: half as many tenths). -/
def deep (p : Part) (counts : Int) : Part :=
  let h := List.replicate 8 counts
  { p with history := { p.history with dlo := h, dli := h, dri := h, dro := h } }

/-- A candidate centred at a chainage. -/
def candidateAt (x : Int) : Candidate where
  centre := x
  length := 20
  sleeperClass := .standard
  seen := ⟨true, true, false⟩
  unfastened := false
  matched := ⟨false, false, false, false, false, false⟩
  foldSet := noArms
  skip := none
  halt := false
  insertions := 1

/-- A record with a number and a state, centred at a chainage. -/
def recordOf (n : Nat) (x : Int) (s : RecordState) : SleeperRecord :=
  { newRecord n (candidateAt x) with state := s }

/-- A part that holds records. -/
def holding (p : Part) (rs : List SleeperRecord) : Part :=
  { p with queue := { p.queue with records := rs, nextNumber := rs.length + 1 } }

/-- A part in a cycle on its record 1, in a phase and with a phase timer. -/
def cycling (ph : CyclePhase) (timer : Option PhaseTimer) : Part :=
  let p := holding ready [recordOf 1 0 .inCycle]
  let u : UnitState := { UnitState.undecided with role := .lowered }
  { p with
    queue := { p.queue with aside := some { state := .pending, tampCount := 0, reported := false, failure := none } }
    cycle := { p.cycle with
      phase := ph, current := some 1, phaseTimer := timer, units := ⟨u, u, u, u⟩
      values := some { insertions := 1, depth := 4000, threshold := 1100, squeezeTime := 800, foldSet := noArms } } }

/-- A horizontal segment of 600 mm. -/
def segH : SegmentH := { length := 600, curvatureStart := 0, curvatureEnd := 0, cantStart := 0, cantEnd := 0,
                         reference := .left, diverging := none, link := none }

/-- A part whose context H is in a state and holds slot 3 from the origin on. -/
def planned (s : ContextState) (previous : Option SegmentRecord) (link : Option Nat) : Part :=
  let h : Descriptor := .segmentH { segH with link := link }
  { ready with
    plan := [(3, { state := .inUse, code := none, contents := some h }),
             (4, { state := .loaded, code := none, contents := some (.segmentH segH) })]
    ctxH := { Context.afterReset with state := s, current := some { slot := 3, shadow := h, start := 0 }, previous := previous } }

/-! ### Well-formedness: each check refuses an ill-formed command -/

/-- R174: an identifier of 12 bits in a base frame. -/
theorem test_wf_ident : Instr.wellFormed (.frameReceived ⟨false, false, 2048, []⟩) = false := by decide

/-- R175: 9 bytes of data, a length that CAN FD does not allow. -/
theorem test_wf_length : Instr.wellFormed (.frameReceived ⟨false, false, 16, List.replicate 9 0⟩) = false := by decide

/-- R195: a copy of 51 words, at the end of a save and at a loss of power. -/
theorem test_wf_copy : Instr.wellFormed (.endOfSave ⟨List.replicate 51 0, 0⟩) = false ∧
    Instr.wellFormed (.powerLoss ⟨List.replicate 51 0, 0⟩) = false := by decide

/-- A frame of 8 bytes and a copy of 52 words are well formed. -/
theorem test_wf_accepts : Instr.wellFormed (.frameReceived ⟨false, false, 2047, List.replicate 8 0⟩) = true ∧
    Instr.wellFormed (.endOfSave ⟨List.replicate 52 0, 0⟩) = true := by decide

/-! ### Worked cases of the manual -/

/-- R3: with pitch 2500, P = 1 gives 3 mm ahead of the origin, P = −1 gives 3 mm behind it, P = 2 gives 5 mm. -/
theorem test_chainage_rounds : chainageOf Travel.afterReset 2500 1 = 3 ∧ chainageOf Travel.afterReset 2500 (-1) = -3 ∧
    chainageOf Travel.afterReset 2500 2 = 5 := by decide

/-- R14: the greatest calibrated value is round(65535 × 8192 / 1024) = 524,280. -/
theorem test_calibrated_greatest : roundDiv (65535 * 8192) 1024 = 524280 := by decide

/-- R135: with gain 40 an error of 25 tenths gives full demand, 10 tenths give 40 % and 1 tenth gives 4 %. -/
theorem test_demand : movingDemand .line 40 25 = 100 ∧ movingDemand .line 40 10 = 40 ∧ movingDemand .line 40 1 = 4 ∧
    movingDemand .liftL 40 (-10) = 0 ∧ movingDemand .line 1 4 = 0 := by decide

/-- R195: −50 enters the sum as 65486. -/
theorem test_negative_word : (BitVec.ofInt 16 (-50)).toNat = 65486 := by decide

/-- R195: the copy of the part as delivered is valid. -/
theorem test_factory_copy_valid : copyValid State.reset.part.store.copy = true := by decide +kernel

/-- R97, worked case of section 6.2: entry 43 lies at 1,215,000 on the grid 1,000,000 + n × 5000. -/
theorem test_lookup_at_entry :
    lookUp { entries := [(43, ⟨some 200, none⟩), (44, ⟨some (-100), none⟩)], base := 1000000, spacing := 5000, window := none }
      (·.lateral) 1215000 = some 200 ∧
    lookUp { entries := [(43, ⟨some 200, none⟩), (44, ⟨some (-100), none⟩)], base := 1000000, spacing := 5000, window := none }
      (·.lateral) 1217500 = some 50 := by decide

/-- R97, section 6.2: half-way values round away from zero, and 999,999 and 2,275,001 lie beyond the entries. -/
theorem test_lookup_rounds_and_ends :
    let t := fun (v : Int) => ({ entries := [(2, ⟨some 0, none⟩), (3, ⟨some v, none⟩), (255, ⟨some 7, none⟩)], base := 1000000,
                                 spacing := 5000, window := none } : Corrections)
    lookUp (t 5) (·.lateral) 1012500 = some 3 ∧ lookUp (t (-5)) (·.lateral) 1012500 = some (-3) ∧
    lookUp (t 5) (·.lateral) 999999 = none ∧ lookUp (t 5) (·.lateral) 2275000 = some 7 ∧
    lookUp (t 5) (·.lateral) 2275001 = none := by decide

/-- Section 7.8: the inputs of the worked case, with what of them section 7.9 changes. -/
def workedInputs (u m : Int) (fA fAv : Int) (lvlSaturated : Bool) (mvR xm p : Int) : TargetInputs where
  settings := Settings.factory
  modeH := .inSegment
  geoH := some { length := 60000, u := u, curvatureStart := 0, curvatureEnd := 3333, cantStart := 0, cantEnd := 1200,
                 reference := .low, diverging := some (1500, 3000) }
  modeV := .inSegment
  geoV := some { u := u, curvature := 0, baseLift := 300 }
  fA := some fA
  fAv := some fAv
  trim := 4
  m := m
  lnSaturated := false
  mvL := 412
  lvlSaturated := lvlSaturated
  mvR := mvR
  lvrSaturated := false
  xm := xm
  xlSaturated := false
  previous := some p

/-- Section 7.8: shift 390, lifts 485 and 545, auxiliary lift 575, with STEP_LIMIT alone. -/
theorem test_worked_targets : computeTargets (workedInputs 29987 1050 86 (-45) false 470 540 310) =
    { shift := 390, liftL := 485, liftR := 545, aux := some 575, flags := { noTargetFlags with stepLimit := true } } := by
  decide

/-- Section 7.9: shift 451, lifts 438 and 502, auxiliary lift 535, with REF_SWAPPED alone. -/
theorem test_worked_targets_swapped : computeTargets (workedInputs 31200 1120 78 (-40) true 430 560 390) =
    { shift := 451, liftL := 438, liftR := 502, aux := some 535, flags := { noTargetFlags with refSwapped := true } } := by
  decide

/-- Section 8.6: the demands of LINE with gain 30, of LIFT-L, and the floor of LIFT-R. -/
theorem test_worked_demands : movingDemand .line 30 390 = 100 ∧ movingDemand .line 30 18 = 54 ∧
    movingDemand .liftL 40 11 = 44 ∧ axisError .liftL (-75) (-64) = 11 ∧ axisError .aux 1775 1772 = 3 ∧
    movingDemand .liftR 40 (axisError .liftR (-77) (-84)) = 0 := by decide

/-- Section 11.2: the checksum of the defaults is 2620, and 2640 with the pitch 2480. -/
theorem test_checksums : checksumOf Settings.factory.toWords = 2620 ∧
    checksumOf (Settings.factory.set .pitch 2480).toWords = 2640 := by decide +kernel

/-- R192: the fold set of a byte and back, and F = 59 for a record without targets and result. -/
theorem test_record_length : (recordFields (recordOf 1 0 .pending)).length = 59 := by decide

/-- R1: a transition of line 1 alone from both low is a pulse, and one of both lines is none. -/
theorem test_pulse : pulseOf false false true false = some .forward ∧ pulseOf true false false false = some .backward ∧
    pulseOf false false true true = none := by decide

/-- R25, R26: after 12 body cells the third absent cell completes the body and the sixteenth in CLOSING classifies it. -/
theorem test_body_closes :
    let cells := fun (n : Nat) => (List.range (12 + n)).map fun i =>
      ({ position := 10 * (i : Nat), lines := ⟨decide (i < 12), false, false, false⟩ } : Cell)
    let run := fun (n : Nat) =>
      (scanRun Settings.factory .ascending { ready.scanner with guardSet := false } (cells n)).2.map (·.length)
    run 18 = [] ∧ run 19 = [12] := by decide

/-! ### Single steps, with results taken from the manual -/

/-- The part after a command. -/
def after (o : Host.Outcome State Fault Refusal) : Option Part :=
  match o with
  | .next t => some t.part
  | _ => none

/-- The data of the messages in the transmit queue after a command. -/
def sent (o : Host.Outcome State Fault Refusal) : Option (List (List Byte)) := (after o).map fun p => p.port.tx.map (·.data)

/-- R107: TRIM UP on a trim of +40 leaves it and answers CLAMPED with the trim. -/
theorem test_trimUp_at_end : sent (exec .trimUp (ask { ready with trim := 40 } (req 29 1 []))) = some [[5, 1, 1, 40]] := by
  decide

/-- R106: TRIM SET −128 makes the trim −40, CLAMPED (216 is −40 in one byte). -/
theorem test_trimSet_clamps : sent (exec .trimSet (ask ready (req 28 1 [128]))) = some [[5, 1, 1, 216]] := by decide

/-- R197: SETTING READ of the pitch carries the number and 2500 in 4 bytes; R174: the reply's identifier is 73 × 16 + 8. -/
theorem test_settingRead : (after (exec .settingRead (ask ready (req 9 3 [1])))).map (fun p => p.port.tx) =
    some [{ ident := 73 * 16 + 8, data := [5, 0, 5, 1, 196, 9, 0, 0], length := 8 }] := by decide

/-- R196: a write of a pitch of 5001 is refused with BAD_FIELD and changes nothing in the record. -/
theorem test_settingWrite_refused : (after (exec .settingWrite (ask ready (req 8 1 (1 :: writeInt 4 5001))))).map
    (fun p => (p.store.working.pitch, p.port.tx.map (·.data))) = some (2500, [[5, 4, 0]]) := by decide +kernel

/-- R177, R190: while the part is STARTING every request is answered BUSY. -/
theorem test_starting_busy : sent (exec .status (ask State.reset.part (req 1 1 []))) = some [[5, 2, 0]] := by decide

/-- R179: a control-class request from a node without authority is answered NOT_AUTHORISED. -/
theorem test_not_authorised : sent (exec .cycleStop (ask ready (req 42 3 []))) = some [[5, 7, 0]] := by decide

/-- R203, R171: with every unit raised, the eighth sample settles the cycle to IDLE and sends EVENT STARTED (kind 1, merged count
1, LOADED, IDLE, no cause). -/
theorem test_settling_idle :
    let h := List.replicate 8 (0 : Int)
    let p := { State.reset.part with history := { State.reset.part.history with
      dlo := h, dli := h, dri := h, dro := List.replicate 7 0 } }
    (after (exec (.startUpSettling .dro 0) (st p))).map
      (fun q => (decide (q.phase = .ready), decide (q.cycle.phase = .idle), q.port.tx.map (·.data))) =
      some (true, true, [[0, 5, 1, 1, 0, 0, 0]]) := by decide

/-- R165: the emergency stop line in IDLE locks the cycle out with ESTOP (EVENT kind 5, cause set 2). -/
theorem test_estop_idle : (after (exec .emergencyStopAsserted (st ready))).map
    (fun p => (decide (p.cycle.phase = .lockout), (p.port.tx.map (·.data)).map (·.take 6))) =
      some (true, [[0, 9, 5, 1, 2, 2]]) := by decide

/-- R6: the pulse refused at the high end leaves P and sends EVENT CHAINAGE_LIMIT (kind 4), HIGH, with the chainage of C. -/
theorem test_chainage_limit :
    let p := { ready with travel := { ready.travel with origin := 99999999 } }
    (after (exec (.odometerPulse true false noLines) (st p))).map
      (fun q => (q.travel.pulses, q.travel.highLimit, q.port.tx.map (·.data))) =
      some (0, true, [[0, 7, 4, 1, 1] ++ writeInt 4 99999999]) := by decide

/-- R187: the link restart empties both queues and returns authority to the supervisor node. -/
theorem test_linkRestart :
    let p := { ready with port := { ready.port with link := .busOff, authority := 3, rx := [req 1 1 []] } }
    (after (exec .linkRestart (st p))).map (fun q => (q.port.rx.length, q.port.authority, decide (q.port.link = .on))) =
      some (0, 1, true) := by decide

/-- R151, R153: CYCLE START with no record in position is refused with BAD_STATE. -/
theorem test_cycleStart_none : sent (exec .cycleStart (ask ready (req 41 1 []))) = some [[5, 3, 0]] := by decide

/-- R73, R81: PLAN RUN on an EMPTY slot leaves the context DEAD, with EVENT PLAN_STATE (kind 2) before the reply. -/
theorem test_planRun_dies :
    (after (exec .planRun (ask ready (req 20 1 ([0, 7, 0] ++ [0, 0, 0, 0, 0]))))).map
      (fun p => (p.ctxH.dead, p.port.tx.map fun m => m.data.take 4)) =
      some (some (.emptySlot, 7), [[0, 8, 2, 1], [5, 0, 1, 4]]) := by decide

/-- R102: CORR DATA without an open window is refused with NO_WINDOW. -/
theorem test_corrData_noWindow : sent (exec .corrData (ask ready (req 26 1 [0, 0, 0, 0]))) = some [[5, 9, 0]] := by decide

/-- R63, step 1: PLAN WRITE with slot 512 and nothing more is refused with BAD_FIELD. -/
theorem test_planWrite_slot_first : sent (exec .planWrite (ask ready (req 16 1 [0, 2]))) = some [[5, 4, 0]] := by decide

/-- R90, R91: the u of a V answer: 0 at the segment's start, 599 before its end, its length 600 from there on, and 0 behind it. -/
theorem test_answerV_u :
    let v : SegmentV := { length := 600, curvature := 7, baseLift := 300, link := none }
    let u := fun (x : Int) => (answerV { ready with
      travel := { ready.travel with origin := x }
      ctxV := { Context.afterReset with state := .running, current := some { slot := 3, shadow := .segmentV v, start := 0 } } }).2.map
        fun g => (g.u, g.curvature)
    u 0 = some (0, 7) ∧ u 599 = some (599, 7) ∧ u 600 = some (600, 7) ∧ u (-1) = some (0, 7) := by decide

/-! ### Witnesses: the machine, power and start-up -/

/-- `PowerComesAndGoes`, clause by clause. -/
theorem test_w_power :
    let off := st { ready with powered := false }
    let bad := st { ready with powered := false, store := { ready.store with copy := ⟨[], 0⟩ } }
    off.part.powered = false ∧ Instr.busOff ≠ .powerOn ∧ copyValid off.part.store.copy = true ∧
    bad.part.powered = false ∧ copyValid bad.part.store.copy = false ∧ (st ready).part.powered = true := by decide +kernel

/-- `PartResetTakesEffectWhenItsReplyIsSent`, clause by clause. -/
theorem test_w_partReset :
    let r := req 13 1 []
    let s := ask ready r
    let waits := fun (l : LinkState) => st { ready with port := { ready.port with
      resetPending := true, link := l, tx := [replyOf 8 r 0 []] } }
    AsksData s r [] 13 ∧ r.fieldLength = 0 ∧ s.part.store.save = none ∧
    AsksData (ask (saving ready) r) r [] 13 ∧ (saving ready).store.save ≠ none ∧
    (waits .on).part.powered = true ∧ (waits .on).part.port.resetPending = true ∧ (waits .on).part.port.link = .on ∧
    (waits .on).part.port.tx = [replyOf 8 r 0 []] ∧ (waits .busOff).part.port.link = .busOff ∧ takenBy .status ≠ none := by
  decide

/-- `TheEighthDepthSampleSettlesTheStart`: the eighth sample of DRO, and the first. -/
theorem test_w_settling :
    let h := List.replicate 8 (0 : Int)
    let p := { State.reset.part with history := { State.reset.part.history with
      dlo := h, dli := h, dri := h, dro := List.replicate 7 0 } }
    p.powered = true ∧ p.phase = .starting ∧
    (∀ u ∈ allUnits, 8 ≤ ((recordSample p .dro 0).history.get (depthChannel u)).length) ∧
    State.reset.part.powered = true ∧ State.reset.part.phase = .starting ∧
    ((recordSample State.reset.part .dro 0).history.get (depthChannel .ro)).length < 8 := by decide

/-! ### Witnesses: the message port -/

/-- `FramesAreReceivedAndSent`: the least and the greatest identifier of a request, three and four requests held, a frame of
the part's own node, and each state of the link. -/
theorem test_w_frames :
    let r := req 1 1 []
    let m := replyOf 8 r 0 []
    let q := fun (n : Nat) (l : LinkState) => st { ready with port := { ready.port with
      rx := List.replicate n r, tx := [m], link := l } }
    (16 : Nat) ≤ 16 ∧ (767 : Nat) < 768 ∧ ((16 % 16 : Nat) : Int) ≠ (q 3 .on).part.store.working.partNode ∧
    ((767 % 16 : Nat) : Int) ≠ (q 3 .on).part.store.working.partNode ∧
    (q 3 .on).part.powered = true ∧ (q 3 .on).part.port.link = .on ∧ (q 3 .on).part.port.rx.length < 4 ∧
    4 ≤ (q 4 .on).part.port.rx.length ∧ (q 3 .busOff).part.port.link = .busOff ∧
    ((24 % 16 : Nat) : Int) = (q 3 .on).part.store.working.partNode ∧ (q 3 .on).part.port.tx = [m] ∧
    (q 3 .on).part.port.resetPending = false ∧ (q 3 .busOff).part.port.resetPending = false := by decide

/-- `RequestsAreDecidedInOrder`: while STARTING, with one field byte missing, of another length, and with no request. -/
theorem test_w_requests :
    let r := req 1 3 [0]
    let short : Request := { kind := 1, node := 3, data := [5, 2, 0] }
    takenBy .status = some (1, some 0) ∧ CanTake (ask State.reset.part r) r [] ∧ (ask State.reset.part r).part.phase = .starting ∧
    CanTake (ask ready short) short [] ∧ short.data.length < short.fieldLength + 2 ∧
    Takes (ask ready r) r [] ∧ 1 ∉ dataKinds ∧ 1 ∉ controlKinds ∧ 0 ≠ r.fieldLength ∧ (st ready).part.port.rx = [] := by decide

/-- `RequestsAreDecidedInOrder`: a sender outside the class, and a kind that is missing from the catalogue. -/
theorem test_w_requestClasses :
    let data := req 10 3 []
    let control := req 29 3 []
    let unknown := req 5 3 []
    Takes (ask ready data) data [] ∧ 10 ∈ dataKinds ∧ data.node ≠ (ask ready data).part.store.working.supervisorNode ∧
    Takes (ask ready control) control [] ∧ 29 ∈ controlKinds ∧ control.node ≠ (ask ready control).part.port.authority ∧
    Takes (ask ready unknown) unknown [] ∧ unknown.kind ∉ dataKinds ∧ unknown.kind ∉ controlKinds ∧
    unknown.kind ∉ readKinds := by decide

/-- `ThePortAnswersItsOwnRequests`: node 15 and the part's own node for AUTH GIVE, and the others. -/
theorem test_w_portRequests :
    let give := fun (n : Nat) => req 3 1 [byte n]
    AsksRead (ask ready (req 1 3 [])) (req 1 3 []) [] 1 ∧ (req 1 3 []).fieldLength = 0 ∧
    AsksRead (ask ready (req 2 3 [])) (req 2 3 []) [] 2 ∧
    AsksControl (ask ready (give 16)) (give 16) [] 3 ∧ (give 16).fieldLength = 1 ∧ 15 < fieldNat (give 16).fields 0 1 ∧
    AsksControl (ask ready (give 15)) (give 15) [] 3 ∧ fieldNat (give 15).fields 0 1 ≤ 15 ∧
    AsksControl (ask ready (give 8)) (give 8) [] 3 ∧
    ((fieldNat (give 8).fields 0 1 : Nat) : Int) = (ask ready (give 8)).part.store.working.partNode ∧
    AsksData (ask ready (req 4 1 [])) (req 4 1 []) [] 4 := by decide

/-- A part with reports waiting and n messages in the transmit queue. -/
def waiting (n : Nat) (h : Option HaltReport) (s : Option StopReport) (e : PendingEvents) : State :=
  st { holding ready [recordOf 1 0 .tamped] with port := { ready.port with
    tx := List.replicate n (replyOf 8 (req 1 1 []) 0 []), halt := h, stop := s, events := e } }

/-- `ReportsHandedOnAreAdmittedOrHeld` and `ReportsAreAdmittedInTheArbitersOrder`: six and seven messages held, and each
source first in turn. -/
theorem test_w_reports :
    let none_ : PendingEvents := ⟨none, none, none, none, none, none⟩
    let one : PendingEvents := { none_ with storeDone := some ⟨.storeDone true, 255⟩ }
    let r : StopReport := ⟨.none, none⟩
    (waiting 6 none none none_).part.port.tx.length ≤ 6 ∧ 7 ≤ (waiting 7 none none one).part.port.tx.length ∧
    (waiting 7 none none one).part.port.events.get .storeDone = some ⟨.storeDone true, 255⟩ ∧
    (waiting 6 (some ⟨1, 0⟩) (some r) one).part.powered = true ∧
    (waiting 6 (some ⟨1, 0⟩) (some r) one).part.port.resetPending = false ∧
    (waiting 6 (some ⟨1, 0⟩) (some r) one).part.port.halt = some ⟨1, 0⟩ ∧
    (waiting 6 none (some r) one).part.port.halt = none ∧ (waiting 6 none (some r) one).part.port.stop = some r ∧
    (waiting 6 none none one).part.port.stop = none ∧
    (∀ j ∈ [EventKind.started, .lockout, .planState, .chainageLimit, .scanOverflow],
      (waiting 6 none none one).part.port.events.get j = none) ∧
    (waiting 6 none none none_).part.queue.records = [recordOf 1 0 .tamped] ∧
    SleeperRecord.isUnreported (recordOf 1 0 .tamped) = true := by decide

/-! ### Witnesses: travel, samples and the scanner -/

/-- `DivisionRoundsAndFieldsReadBack` and `TravelStepsMoveOneToFiveMillimetres`: the ends of a field's range and of the
pitch. -/
theorem test_w_arithmetic : (1000 : Int) ≠ 0 ∧ (1 : Nat) ≤ 1 ∧ -(2 ^ (8 * 1 - 1)) ≤ (-128 : Int) ∧
    (127 : Int) < 2 ^ (8 * 1 - 1) ∧ (1000 : Int) ≤ 1000 ∧ (5000 : Int) ≤ 5000 ∧ ready.travel.originState = .set ∧
    State.reset.part.travel.originState = .none := by decide

/-- A part that stands at a chainage, with the odometer lines low. -/
def standing (x : Int) : Part := { ready with travel := { ready.travel with origin := x } }

/-- `OdometerPulsesMoveTheCounter` and `TheBlocksTakeATravelStep`: no pulse, an advance and a retreat in range, and the first
refused pulse at each end. -/
theorem test_w_pulses :
    (st ready).part.powered = true ∧ pulseOf ready.lines.odo1 ready.lines.odo2 false false = none ∧
    pulseOf ready.lines.odo1 ready.lines.odo2 true false = some .forward ∧
    pulseOf ready.lines.odo1 ready.lines.odo2 false true = some .backward ∧
    State.reset.part.travel.originState = .none ∧ ready.travel.originState = .set ∧
    chainageOf (standing 99999996).travel 2500 1 ≤ 99999999 ∧ 99999999 < chainageOf (standing 99999997).travel 2500 1 ∧
    chainageOf (standing (-99999997)).travel 2500 (-1) < -99999999 ∧ ready.cycle.phase = .idle := by decide

/-- The travel counter of a part that stands, at an end of its range and elsewhere, and of one that moves, is legal. -/
theorem test_w_travelLegal : TravelLegal ready ∧ TravelLegal (standing 99999997) ∧ TravelLegal (movingPart ready) := by
  unfold TravelLegal; decide

/-- A part in a cycle is legal in every one of the five cycle states. -/
theorem test_w_cycleLegal (ph : CyclePhase) (timer : Option PhaseTimer) (h : InCyclePhase ph = true) :
    CycleLegal (cycling ph timer) := by
  have hl : ph ≠ .lockout := by rintro rfl; simp [InCyclePhase] at h
  refine ⟨⟨fun _ => hl, fun _ => rfl⟩, fun hs => ?_, ?_, ?_, ?_, ?_, ?_, ?_⟩
  · exact absurd (show PartPhase.ready = .starting from hs) (by decide)
  · intro r hr
    simp only [cycling, holding, List.mem_cons, List.not_mem_nil, or_false] at hr
    subst hr
    simp [cycling, recordOf, newRecord]
  · intro n hn
    have : n = 1 := by simpa [cycling, holding, eq_comm] using hn
    subst this
    exact ⟨recordOf 1 0 .inCycle, by simp [cycling, holding], rfl⟩
  · simp [cycling, h]
  · simp [cycling, h]
  · simp [cycling, holding, h]
  · intro k hk
    have : k = { state := .pending, tampCount := 0, reported := false, failure := none } := by
      simpa [cycling, holding, eq_comm] using hk
    subst this; decide

/-- The queue of a part in a cycle is legal. -/
theorem test_w_queueLegal (ph : CyclePhase) (timer : Option PhaseTimer) : QueueLegal (cycling ph timer) := by
  have h : QueueLegal (cycling .positioning none) := by
    refine ⟨by decide, List.pairwise_singleton _ _, by decide, by decide, by decide, by decide, ?_⟩
    intro k hk
    have : k = { state := .pending, tampCount := 0, reported := false, failure := none } := by
      simpa [cycling, holding, eq_comm] using hk
    subst this; decide
  exact h

/-- `MotionChangesReachTheCycle`: a cycle whose units stand at 201 tenths and at 200, and the standstill timer in each mode. -/
theorem test_w_motion :
    let c := fun (ph : CyclePhase) (counts : Int) => deep (cycling ph none) counts
    (c .raising 402).powered = true ∧ (c .raising 402).travel.motion = .standstill ∧
    (c .raising 402).cycle.current = some 1 ∧ 200 < unitDepth (c .raising 402) .lo ∧
    (∀ u ∈ allUnits, unitDepth (c .raising 400) u ≤ 200) ∧
    (movingPart ready).travel.standstillTimer ≠ none ∧ (movingPart ready).travel.motion = .moving ∧
    (movingPart ready).cycle.mode = .manual ∧ ready.travel.standstillTimer = none := by decide

/-- `MotionChangesReachTheCycle` and `TheBlocksTakeATravelStep`: a pulse at STANDSTILL in POSITIONING with the record kept aside, and
in each later phase with every unit at 201 tenths; and the motion MOVING, within the range and at its end. -/
theorem test_w_motionStops :
    let p := fun (ph : CyclePhase) (counts : Int) => enteredMoving (deep (cycling ph none) counts) true false .forward
    let vertical : PerUnit Vertical := ⟨.raise, .raise, .raise, .raise⟩
    (p .positioning 400).cycle.phase = .positioning ∧ (p .positioning 400).queue.aside ≠ none ∧
    (∀ ph ∈ [CyclePhase.penetrating, .squeezing, .raising, .releasing], (p ph 402).cycle.phase = ph ∧
      200 < unitDepth (p ph 402) .lo ∧
      ∀ w ∈ allUnits, vertical.get w = if unitDepth (p ph 402) w ≤ 200 then .rest else .raise) ∧
    (p .raising 402).queue.motion = .moving ∧ (enteredMoving (standing 99999997) true false .forward).queue.motion = .moving := by
  decide

/-- A part in LOCKOUT with its lockout raise running or not, its units at a depth. -/
def lockedOut (raising stuck : Bool) (counts : Int) : Part :=
  { deep ready counts with cycle := { ready.cycle with
    phase := .lockout, causes := { noCauses with travelFault := true, unitStuck := stuck }, lockoutRaise := raising
    phaseTimer := if raising then some .raise else none } }

/-- `MotionChangesReachTheCycle`: an advance with the origin SET, its queue and its cycle legal, with units at 201 tenths and at
200; and LOCKOUT with a unit at 201 tenths, the lockout raise running and not. -/
theorem test_w_motionForward :
    pulseOf ready.lines.odo1 ready.lines.odo2 true false = some .forward ∧
    (∀ ph ∈ [CyclePhase.positioning, .penetrating, .squeezing, .raising, .releasing], ∀ c ∈ [(400 : Int), 402],
      (deep (cycling ph none) c).travel.originState = .set ∧ (deep (cycling ph none) c).travel.motion = .standstill ∧
      (deep (cycling ph none) c).cycle.phase = ph ∧ (deep (cycling ph none) c).cycle.current = some 1) ∧
    (∀ ph timer c, QueueLegal (deep (cycling ph timer) c)) ∧
    (∀ ph timer c, InCyclePhase ph = true → CycleLegal (deep (cycling ph timer) c)) ∧
    (∀ u ∈ allUnits, unitDepth (deep (cycling .squeezing none) 400) u ≤ 200) ∧
    (∀ r ∈ [true, false], (lockedOut r false 402).powered = true ∧ (lockedOut r false 402).travel.motion = .standstill ∧
      (lockedOut r false 402).cycle.phase = .lockout ∧ 200 < unitDepth (lockedOut r false 402) .lo ∧
      (lockedOut r false 402).cycle.lockoutRaise = r) ∧
    (lockedOut false false 402).lines.estop = false :=
  ⟨by decide, by decide, fun ph timer _ => test_w_queueLegal ph timer, fun ph timer _ h => test_w_cycleLegal ph timer h,
    by decide, by decide, by decide⟩

/-- `OriginSetPlacesTheFrame`: an unknown direction, the ends of the range, a busy part and a free one. -/
theorem test_w_originSet :
    let r := fun (x : Int) (d : Nat) => req 6 1 (writeInt 4 x ++ [byte d])
    AsksData (ask ready (r 0 2)) (r 0 2) [] 6 ∧ (r 0 2).fieldLength = 5 ∧ 1 < fieldNat (r 0 2).fields 4 1 ∧
    99999999 < fieldInt (r 100000000 0).fields 0 4 ∧ fieldInt (r (-100000000) 0).fields 0 4 < -99999999 ∧
    AsksData (ask ready (r (-99999999) 1)) (r (-99999999) 1) [] 6 ∧ fieldInt (r (-99999999) 1).fields 0 4 = -99999999 ∧
    fieldNat (r (-99999999) 1).fields 4 1 ≤ 1 ∧ ready.cycle.phase = .idle ∧ ready.ctxH.state = .stopped ∧
    ready.ctxV.state = .stopped ∧ ready.queue.records = [] ∧
    AsksData (ask (inPhase ready .lockout) (r 0 0)) (r 0 0) [] 6 ∧ (inPhase ready .lockout).cycle.phase ≠ .idle := by decide

/-- `SamplesGiveCalibratedMeans`: a full history, an empty one, and axes at rest in IDLE. -/
theorem test_w_samples :
    (st ready).part.powered = true ∧ ready.phase = .ready ∧ (deep ready 402).history.get .dlo ≠ [] ∧ ready.history.get .ln = [] ∧
    (ready.drive.axes.get .line).phase = .idle ∧ ready.cycle.phase ∈ [CyclePhase.idle, .positioning, .releasing] ∧
    ready.store.working.zero.get .dlo = 0 ∧ ready.store.working.sensitivity.get .dlo = 512 := by decide

/-- `SamplesGiveCalibratedMeans`: a part in STARTING with 6 counts in each depth channel, in LOCKOUT at rest: the next sample does
not settle the start. -/
theorem test_w_samplesStarting :
    let six := List.replicate 6 (402 : Int)
    let p : Part := { State.reset.part with powered := true, history := { State.reset.part.history with
      dlo := six, dli := six, dri := six, dro := six } }
    p.powered = true ∧ p.phase = .starting ∧ ((recordSample p .dlo 402).history.get (depthChannel .lo)).length < 8 ∧
    p.cycle.phase = .lockout ∧ p.cycle.lockoutRaise = false ∧ (∀ u ∈ allUnits, p.cycle.vertical.get u = .rest) ∧
    (∀ x ∈ allArms, p.cycle.fold.get x = false) ∧ (p.drive.axes.get .line).phase = .idle := by decide

/-- The histories of a part whose depth channels hold counts are legal. -/
theorem test_w_historiesLegal : HistoriesLegal (deep ready 402) := by
  intro ch; cases ch <;> decide

/-- `OnlyNewGroundGivesCells`: a scanner point at the front, and one 1 mm beyond it. -/
theorem test_w_scan :
    State.reset.part.scanner.active = false ∧ ready.scanner.active = true ∧ ready.scanner.front = some 9000 ∧
    aheadBy ready.travel.direction (scannerPoint ready) 9000 ≤ 0 ∧ ready.scanner.window.length ≤ 64 ∧
    0 < aheadBy ready.travel.direction (scannerPoint (standing 1)) 9000 ∧ aheadBy .descending 0 5 ≤ 5 := by decide

/-- `ABodyIsClassifiedOnce`: bodies of 11 and 12 cells, one below the minimum and at it. -/
theorem test_w_body :
    let sc := { ready.scanner with guardSet := false }
    let present : ScanLines := ⟨true, true, true, false⟩
    sc.phase = .seeking ∧ sc.guardSet = false ∧ sc.body = none ∧
    (∀ l ∈ List.replicate 12 present, l.se = true) ∧ (∀ l ∈ List.replicate 19 noLines, l.se = false) ∧
    1 ≤ (List.replicate 12 present).length ∧ (List.replicate 12 present).length ≤ 255 ∧
    (List.replicate 19 noLines).length = 19 ∧
    ((List.replicate 11 present).length : Int) < Settings.factory.minBody ∧
    Settings.factory.minBody ≤ ((List.replicate 12 present).length : Int) := by decide

/-- `ABodyIsClassifiedOnce`: a gap of 2 cells with CM in it, merged by the SE-present cell after it; the length at 255; a third
absent cell at a length below the minimum and at it; and the 15th and 16th absent cell of CLOSING and an SE-present one. -/
theorem test_w_cells :
    let b : Body := { first := 0, last := 80, length := 9, seen := ⟨true, false, false⟩, absentRun := 2
                      gap := ⟨false, false, true⟩, closing := 0 }
    let at_ := fun (ph : ScanPhase) (b : Body) => { ready.scanner with phase := ph, body := some b }
    let cell := fun (x : Int) (se : Bool) => ({ position := x, lines := ⟨se, false, false, false⟩ } : Cell)
    let d := fun (sc : Scanner) (c : Cell) => detect Settings.factory .ascending sc c
    ready.scanner.guardSet = true ∧ b.absentRun = 2 ∧ (b.length : Int) < Settings.factory.minBody ∧
    (d (at_ .inBody b) (cell 110 true)).1.body.map (fun x => (x.length, x.seen, x.absentRun)) = some (12, ⟨true, false, true⟩, 0) ∧
    (d (at_ .inBody b) (cell 2550 true)).1.body.map (·.length) = some 255 ∧
    (d (at_ .inBody { b with length := 12 }) (cell 110 false)).1.phase = .closing ∧
    (d (at_ .closing { b with closing := 14 }) (cell 110 false)).2 = none ∧
    ((d (at_ .closing { b with closing := 15 }) (cell 110 false)).2.map (·.centre)) = some 40 ∧
    ((d (at_ .closing b) (cell 110 true)).2.map (·.centre)) = some 40 ∧
    (d (at_ .closing b) (cell 110 true)).1.body.map (·.first) = some 110 := by decide

/-! ### Witnesses: the patterns -/

/-- `PatternsMatchAndCombine`: a slot that matches with an override, after slots that do not. -/
theorem test_w_patterns :
    let cell : PatternCell := { value := ⟨true, false, false, false⟩, mask := ⟨true, false, false, false⟩ }
    let pt : Pattern := { enabled := true, anchor := 0, cells := [cell], action := .halt, foldSet := noArms, insertions := 2 }
    let window : List Cell := [{ position := 100, lines := ⟨true, true, true, false⟩ }]
    let slots := (⟨.slotDefault, pt, .slotDefault, .slotDefault, .slotDefault, .slotDefault⟩ : PerSlot Pattern)
    slots.toList = [.slotDefault] ++ pt :: [.slotDefault, .slotDefault, .slotDefault, .slotDefault] ∧
    patternMatches .ascending window 100 pt = true ∧ pt.insertions ≠ 0 ∧
    patternMatches .ascending window 100 .slotDefault = false := by decide

/-- `PatternsAreSetSwitchedAndRead`: PATTERN SET too short, with slot 7, with a wrong number of cells, and good. -/
theorem test_w_patternSet :
    let r := fun (slot n : Nat) (cells : List Byte) =>
      req 32 1 (writeInt 2 slot ++ [byte 1, byte n] ++ writeInt 1 (-16) ++ [byte 1, byte 255, byte 4] ++ cells)
    let short := req 32 1 [1, 0, 1, 1, 0, 0, 0]
    AsksData (ask ready short) short [] 32 ∧ short.fieldLength < 8 ∧
    AsksData (ask ready (r 7 1 [17])) (r 7 1 [17]) [] 32 ∧ 8 ≤ (r 7 1 [17]).fieldLength ∧ fieldNat (r 7 1 [17]).fields 0 2 = 7 ∧
    AsksData (ask ready (r 6 2 [17])) (r 6 2 [17]) [] 32 ∧ (r 6 2 [17]).fieldLength ≠ 8 + 2 ∧
    AsksData (ask ready (r 6 1 [17])) (r 6 1 [17]) [] 32 ∧ (r 6 1 [17]).fieldLength = 8 + 1 ∧
    fieldInt (r 6 1 [17]).fields 4 1 = -16 ∧ fieldNat (r 6 1 [17]).fields 6 1 = 255 := by decide

/-- `PatternsAreSetSwitchedAndRead`: PATTERN ENABLE with the codes 0 to 3, and PATTERN READ of slots 0, 6 and 7. -/
theorem test_w_patternEnable :
    let good := req 33 1 [0, 1, 2, 2, 2, 2]
    let bad := req 33 1 [0, 1, 2, 2, 2, 3]
    let r := fun (slot : Nat) => req 34 1 (writeInt 2 slot)
    AsksControl (ask ready good) good [] 33 ∧ good.fieldLength = 6 ∧ (∀ i, i < 6 → fieldNat good.fields i 1 ≤ 2) ∧
    AsksControl (ask ready bad) bad [] 33 ∧ bad.fieldLength = 6 ∧ 2 < fieldNat bad.fields 5 1 ∧
    AsksRead (ask ready (r 7)) (r 7) [] 34 ∧ (r 7).fieldLength = 2 ∧ 6 < fieldNat (r 7).fields 0 2 ∧
    fieldNat (r 0).fields 0 2 < 1 ∧ AsksRead (ask ready (r 6)) (r 6) [] 34 ∧ fieldNat (r 6).fields 0 2 = 6 ∧
    ready.scanner.patterns.toList[6 - 1]? = some .slotDefault := by decide

/-! ### Witnesses: the queue -/

/-- A part that keeps nothing aside has a legal queue when its records and its numbers are. -/
theorem queueLegal_of (p : Part) (ha : p.queue.aside = none)
    (h : p.queue.records.length ≤ 16 ∧ p.queue.records.Pairwise (fun x y => x.number < y.number) ∧
      (∀ r ∈ p.queue.records, 1 ≤ r.number ∧ (r.number < p.queue.nextNumber ∨
        (p.queue.exhausted = true ∧ r.number = p.queue.nextNumber)) ∧ r.tampCount ≤ 15) ∧
      (p.queue.records.filter SleeperRecord.isReported).length ≤ 4 ∧
      1 ≤ p.queue.nextNumber ∧ p.queue.nextNumber ≤ 4294967295) : QueueLegal p :=
  ⟨h.1, h.2.1, h.2.2.1, h.2.2.2.1, h.2.2.2.2.1, h.2.2.2.2.2, fun k hk => by rw [ha] at hk; cases hk⟩

/-- A part that holds 16 records, the last with a reported flag. -/
def fullPart (reported : Bool) : Part :=
  holding ready ((List.range 15).map (fun i => recordOf (i + 1) 0 .pending) ++
    [{ recordOf 16 0 .tamped with reported := reported }])

/-- `CandidatesAreRecordedOrLost` and `AdvancesPassPendingRecords`: no record, 16 without and with a reported one, and the last
number. -/
theorem test_w_candidates :
    QueueLegal ready ∧ QueueLegal (fullPart false) ∧ QueueLegal (fullPart true) ∧
    (∀ r ∈ (fullPart false).queue.records, SleeperRecord.isReported r = false) ∧
    16 ≤ (fullPart false).queue.records.length ∧ (fullPart true).queue.exhausted = false ∧
    (∃ before r, (fullPart true).queue.records = before ++ r :: [] ∧
      (∀ x ∈ before, SleeperRecord.isReported x = false) ∧ SleeperRecord.isReported r = true) ∧
    QueueLegal { ready with queue := { ready.queue with nextNumber := 4294967295, exhausted := true } } := by
  refine ⟨queueLegal_of _ rfl (by decide), queueLegal_of _ rfl (by decide), queueLegal_of _ rfl (by decide), by decide, by decide,
    rfl, ⟨_, _, rfl, by decide, by decide⟩, queueLegal_of _ rfl (by decide)⟩

/-- `StopPointAndRecordInPosition`: records at and 1 mm beyond the tolerance behind C, with the latch at the target and above
it. -/
theorem test_w_stopPoint :
    let p := holding ready [recordOf 1 (-31) .pending, recordOf 2 (-30) .pending]
    let latched := fun (h : Nat) => { p with queue := { p.queue with latch := some h } }
    p.queue.records.Pairwise (fun x y => x.number < y.number) ∧ p.travel.originState = .set ∧
    aheadBy p.travel.direction (-31) (chainageC p) < -p.store.working.positionTolerance ∧
    -p.store.working.positionTolerance ≤ aheadBy p.travel.direction (-30) (chainageC p) ∧
    (latched 2).queue.latch = some 2 ∧ (2 : Nat) < 3 ∧ stopPointOf p ≠ p.queue.lastStop ∧
    stopPointOf ready = ready.queue.lastStop := by decide

/-- `SkipMarkAndHaltClear`: SKIP MARK of number 0, of no record held, and of a PENDING record, with each action. -/
theorem test_w_skipMark :
    let p := holding ready [recordOf 1 0 .pending]
    let r := fun (n a : Nat) => req 37 1 (writeInt 4 n ++ [byte a])
    AsksControl (ask p (r 0 0)) (r 0 0) [] 37 ∧ (r 0 0).fieldLength = 5 ∧ fieldNat (r 0 0).fields 0 4 = 0 ∧
    1 < fieldNat (r 1 2).fields 4 1 ∧ AsksControl (ask p (r 2 1)) (r 2 1) [] 37 ∧
    recordAt (found (ask p (r 2 1)).part (r 2 1) []).queue.records 2 = none ∧
    AsksControl (ask p (r 1 1)) (r 1 1) [] 37 ∧ fieldNat (r 1 1).fields 0 4 = 1 ∧ fieldNat (r 1 1).fields 4 1 = 1 ∧
    recordAt (found (ask p (r 1 1)).part (r 1 1) []).queue.records 1 = some (recordOf 1 0 .pending) := by decide

/-- `SkipMarkAndHaltClear`: HALT CLEAR with the latch clear, and set with a halting record just above it. -/
theorem test_w_haltClear :
    let halting : SleeperRecord := { recordOf 2 0 .pending with candidate := { candidateAt 0 with halt := true } }
    let p := holding ready [recordOf 1 0 .pending, halting]
    let q := { p with queue := { p.queue with latch := some 1 } }
    let r := req 38 1 []
    AsksControl (ask p r) r [] 38 ∧ r.fieldLength = 0 ∧ p.queue.latch = none ∧
    AsksControl (ask q r) r [] 38 ∧ q.queue.latch = some 1 ∧ halting ∈ q.queue.records ∧ 1 < halting.number ∧
    halting.candidate.halt = true ∧ halting.state = .pending ∧
    q.queue.records.Pairwise (fun y z => y.number < z.number) := by decide

/-- `ReadsReturnWhatIsHeld`: QUEUE READ of form 2, of a record held and not held, and of the list. -/
theorem test_w_queueRead :
    let p := holding ready [recordOf 1 0 .pending]
    let r := fun (f n : Nat) => req 36 1 (byte f :: writeInt 4 n)
    AsksRead (ask p (r 2 0)) (r 2 0) [] 36 ∧ (r 2 0).fieldLength = 5 ∧ 2 ≤ fieldNat (r 2 0).fields 0 1 ∧
    AsksRead (ask p (r 0 2)) (r 0 2) [] 36 ∧ fieldNat (r 0 2).fields 1 4 = 2 ∧
    AsksRead (ask p (r 0 1)) (r 0 1) [] 36 ∧ fieldNat (r 0 1).fields 0 1 = 0 ∧
    recordAt p.queue.records 1 = some (recordOf 1 0 .pending) ∧
    AsksRead (ask p (r 1 0)) (r 1 0) [] 36 ∧ fieldNat (r 1 0).fields 0 1 = 1 := by decide

/-- `ReadsReturnWhatIsHeld`: PLAN READ of slots 511 and 512 and of a slot with contents. -/
theorem test_w_planRead :
    let p := planned .running none none
    let r := fun (k : Nat) => req 19 1 (writeInt 2 k)
    AsksRead (ask p (r 512)) (r 512) [] 19 ∧ (r 512).fieldLength = 2 ∧ 511 < fieldNat (r 512).fields 0 2 ∧
    AsksRead (ask p (r 511)) (r 511) [] 19 ∧ fieldNat (r 511).fields 0 2 = 511 ∧ (slotAt p.plan 511).contents = none ∧
    AsksRead (ask p (r 4)) (r 4) [] 19 ∧ fieldNat (r 4).fields 0 2 = 4 ∧
    (slotAt p.plan 4).contents = some (.segmentH segH) := by decide

/-- A part with a correction window of a node, its cursor at the last entry. -/
def windowed (owner : Int) : Part := { ready with corr := { ready.corr with
  window := some { owner := owner, first := 254, last := 255, cursor := 255, mode := .write } } }

/-- `ReadsReturnWhatIsHeld`: CORR READ without fields, of an unknown form, of a wrong length, by entry, and by the cursor with no
window, with another's and with its own. -/
theorem test_w_corrRead :
    let r := fun (fs : List Byte) => req 27 1 fs
    AsksRead (ask ready (r [])) (r []) [] 27 ∧ (r []).fieldLength = 0 ∧
    AsksRead (ask ready (r [2])) (r [2]) [] 27 ∧ 2 ≤ fieldNat (r [2]).fields 0 1 ∧
    AsksRead (ask ready (r [1])) (r [1]) [] 27 ∧ (r [1]).fieldLength ≠ 3 ∧
    AsksRead (ask ready (r [1, 255, 0])) (r [1, 255, 0]) [] 27 ∧ fieldNat (r [1, 255, 0]).fields 1 2 = 255 ∧
    255 < fieldNat (r [1, 0, 1]).fields 1 2 ∧
    AsksRead (ask ready (r [0])) (r [0]) [] 27 ∧ (r [0]).fieldLength = 1 ∧ ready.corr.window = none ∧
    (windowed 3).corr.window.map (·.owner) = some 3 ∧ AsksRead (ask (windowed 1) (r [0])) (r [0]) [] 27 := by decide

/-! ### Witnesses: the plan -/

/-- `StoresReadBackAsWritten`: canonical stores, empty and not. -/
theorem test_w_stores : Table.wf emptySlot (planned .running none none).plan = true ∧ Table.wf unsetEntry [] = true ∧
    Table.wf unsetEntry [(255, { lateral := some (-2000), vertical := none })] = true := by decide

/-- `PlanWriteStoresDescriptorsInRange`: a descriptor at the ends of its ranges, into slot 511 and into a slot IN_USE; and the
refusals of a whole head. -/
theorem test_w_planWrite :
    let d : Descriptor := .repeatRun 255 511
    let r := fun (k : Nat) => req 16 1 (writeInt 2 k ++ descriptorFields d)
    let s := fun (fs : List Byte) => req 16 1 fs
    DescriptorWritable d ∧ AsksData (ask ready (r 511)) (r 511) [] 16 ∧ fieldNat (r 511).fields 0 2 ≤ 511 ∧
    (r 511).fields = writeInt 2 511 ++ descriptorFields d ∧ (slotAt ready.plan 511).state ≠ .inUse ∧
    (slotAt (planned .running none none).plan 3).state = .inUse ∧
    AsksData (ask ready (s [0, 2, 5])) (s [0, 2, 5]) [] 16 ∧ 511 < fieldNat (s [0, 2, 5]).fields 0 2 ∧
    fieldNat (s [0, 0, 7]).fields 2 1 = 7 ∧ AsksData (ask ready (s [0, 0, 5, 0])) (s [0, 0, 5, 0]) [] 16 ∧
    fieldNat (s [0, 0, 5, 0]).fields 2 1 = 5 ∧ (s [0, 0, 5, 0]).fieldLength ≠ 3 ∧
    descriptorOf (r 511).fields 6 = some d := by
  simp only [DescriptorWritable]; decide

/-- `PlanWriteStoresDescriptorsInRange`: half a slot, the slots 512 and 511 with nothing more, and a REPEAT with a count of 0. -/
theorem test_w_planWriteShort :
    let s := fun (fs : List Byte) => req 16 1 fs
    let zero : List Byte := [0, 0, 6, 0, 1, 0, 0]
    AsksData (ask ready (s [0])) (s [0]) [] 16 ∧ (s [0]).fieldLength < 2 ∧
    AsksData (ask ready (s [0, 2])) (s [0, 2]) [] 16 ∧ 511 < fieldNat (s [0, 2]).fields 0 2 ∧
    AsksData (ask ready (s [255, 1])) (s [255, 1]) [] 16 ∧ fieldNat (s [255, 1]).fields 0 2 = 511 ∧
    AsksData (ask ready (s zero)) (s zero) [] 16 ∧ (s zero).fieldLength = 7 ∧ fieldNat (s zero).fields 2 1 = 6 ∧
    descriptorOf (s zero).fields 6 = none := by decide

/-- `PlanWriteStoresDescriptorsInRange`: a SEGMENT-H and a SEGMENT-V at the ends of their ranges and 1 beyond one end, the slots
511 and 512 of a BRANCH, and a CALL and a REPEAT with and without their link. -/
theorem test_w_planWriteFields :
    let h := fun (length : Nat) (rail : Nat) (x : Int) => [0, 0, 1] ++ writeInt 4 length ++ writeInt 2 20000 ++ writeInt 2 (-20000) ++
      writeInt 2 2000 ++ writeInt 2 (-2000) ++ [byte rail, 0, 255, 255, 1] ++ writeInt 2 x ++ writeInt 2 (-2000)
    let v := fun (k : Int) (base : Nat) => [0, 0, 2] ++ writeInt 4 1000000 ++ writeInt 2 k ++ writeInt 2 base ++ [1, 255, 1]
    descriptorOf (h 500 2 6000) 1 = some (.segmentH { length := 500, curvatureStart := 20000, curvatureEnd := -20000
                                                      cantStart := 2000, cantEnd := -2000, reference := .low
                                                      diverging := some (6000, -2000), link := none }) ∧
    descriptorOf (h 499 2 6000) 1 = none ∧ descriptorOf (h 500 3 6000) 1 = none ∧ descriptorOf (h 500 2 6001) 1 = none ∧
    descriptorOf (v (-2000) 1500) 2 =
      some (.segmentV { length := 1000000, curvature := -2000, baseLift := 1500, link := some 511 }) ∧
    descriptorOf (v (-2001) 1500) 2 = none ∧ descriptorOf (v (-2000) 1501) 2 = none ∧
    fieldNat [0, 0, 3, 255, 1] 3 2 = 511 ∧ fieldNat [0, 0, 3, 0, 2] 3 2 = 512 ∧
    descriptorOf [0, 0, 4, 255, 1, 1, 0, 0] 4 = some (.call 511 0) ∧ descriptorOf [0, 0, 4, 255, 1, 0, 0, 0] 4 = none ∧
    descriptorOf [0, 0, 6, 1, 1, 255, 1] 6 = some (.repeatRun 1 511) ∧ descriptorOf [0, 0, 6, 1, 0, 255, 1] 6 = none := by decide

/-- `PlanLinkAndClear`: links to 511 and 512, an absent link, and ranges with and without a slot IN_USE. -/
theorem test_w_planLink :
    let p := planned .running none none
    let l := fun (k c n : Nat) => req 17 1 (writeInt 2 k ++ byte c :: writeInt 2 n)
    let c := fun (x y : Nat) => req 18 1 (writeInt 2 x ++ writeInt 2 y)
    AsksData (ask p (l 3 1 512)) (l 3 1 512) [] 17 ∧ (l 3 1 512).fieldLength = 5 ∧ 511 < fieldNat (l 3 1 512).fields 3 2 ∧
    AsksData (ask p (l 3 1 511)) (l 3 1 511) [] 17 ∧ fieldNat (l 3 1 511).fields 3 2 ≤ 511 ∧
    (slotAt p.plan 3).contents = some (.segmentH segH) ∧ (slotAt p.plan 511).contents = none ∧
    AsksData (ask p (c 4 511)) (c 4 511) [] 18 ∧ (c 4 511).fieldLength = 4 ∧ Table.wf emptySlot p.plan = true ∧
    (slotAt p.plan 3).state = .inUse ∧ AsksData (ask p (c 3 3)) (c 3 3) [] 18 ∧
    fieldNat (c 4 3).fields 2 2 < fieldNat (c 4 3).fields 0 2 := by decide

/-- `FetchesFollowFlowDescriptors`: a slot of each kind, stacks of none and of three and four return slots. -/
theorem test_w_fetch :
    let slot := fun (d : Descriptor) => ({ state := .loaded, code := none, contents := some d } : Slot)
    let plan : Table Slot := [(1, slot (.branch 2)), (2, slot (.call 5 6)), (3, slot .ret), (4, slot (.repeatRun 1 5)),
                              (5, slot (.segmentH segH)), (6, slot (.repeatRun 1 1))]
    let w := fun (stack : List Nat) => ({ plan := plan, stack := stack, repeatLeft := 0 } : Walk)
    (slotAt plan 0).contents = none ∧ (slotAt plan 1).contents = some (.branch 2) ∧ isFlow (.branch 2) = true ∧
    (slotAt plan 2).contents = some (.call 5 6) ∧ (w [1, 1, 1]).stack.length < 4 ∧ 4 ≤ (w [1, 1, 1, 1]).stack.length ∧
    (slotAt plan 3).contents = some .ret ∧ (w []).stack = [] ∧ (w [7]).stack = [] ++ [7] ∧
    (slotAt plan 4).contents = some (.repeatRun 1 5) ∧ isFlow (.segmentH segH) = false ∧
    (slotAt plan 6).contents = some (.repeatRun 1 1) ∧ Table.wf emptySlot plan = true ∧
    (fetch .h (w []) 2).2 = .reached 5 (.segmentH segH) ∧ (fetch .v (w []) 5).2 = .died .wrongKind 5 ∧
    (slotAt plan 5).contents = some (.segmentH segH) ∧ isOwnKind .h (.segmentH segH) = true ∧
    isOwnKind .v (.segmentH segH) = false := by decide

/-- A planned part is legal: RUNNING with no previous segment. -/
theorem test_w_planLegal_running (link : Option Nat) : PlanLegal (planned .running none link) := by
  have hs : ∀ k, slotAt (planned .running none link).plan k =
      if 3 = k then { state := .inUse, code := none, contents := some (.segmentH { segH with link := link }) }
      else if 4 = k then { state := .loaded, code := none, contents := some (.segmentH segH) } else emptySlot := fun _ => rfl
  have hh : ∀ k, Holds (planned .running none link).ctxH k ↔ 3 = k := fun k => by simp [Holds, planned, Context.afterReset]
  have hv : ∀ k, ¬ Holds (planned .running none link).ctxV k := fun k => by
    simp [Holds, planned, ready, State.reset, Part.afterReset, Context.afterReset]
  refine ⟨by simp [planned, Table.wf, emptySlot], by simp [planned], fun k => ?_, ?_, ?_, fun k => ?_, fun k hk => ?_, fun k hk => ?_⟩
  · rw [hs]
    split
    · simp [SlotLegal, DescriptorLegal, segH]
    · split <;> simp [SlotLegal, DescriptorLegal, segH, emptySlot]
  · simp [ContextLegal, planned, Context.afterReset, isOwnKind, DescriptorLegal, segH]
  · simp [ContextLegal, planned, ready, State.reset, Part.afterReset, Context.afterReset]
  · rw [hs, hh]
    have := hv k
    split
    · simp_all
    · split <;> simp_all [emptySlot]
  · rw [hh] at hk; subst hk; exact ⟨_, by rw [hs]; simp; rfl, rfl⟩
  · exact absurd hk (hv k)

/-- A planned part is legal: STARVED, with the same segment in both roles. -/
theorem test_w_planLegal_starved (link : Option Nat) :
    PlanLegal (planned .starved (some { slot := 3, shadow := .segmentH { segH with link := link }, start := 0 }) link) := by
  have h := test_w_planLegal_running link
  obtain ⟨h1, h2, h3, -, h5, h6, h7, h8⟩ := h
  have hh : ∀ k, Holds (planned .starved (some { slot := 3, shadow := .segmentH { segH with link := link }, start := 0 }) link).ctxH k ↔
      Holds (planned .running none link).ctxH k := fun k => by simp [Holds, planned, Context.afterReset]
  refine ⟨h1, h2, h3, ?_, h5, fun k => ?_, fun k hk => h7 k ((hh k).1 hk), h8⟩
  · simp [ContextLegal, planned, Context.afterReset, isOwnKind, DescriptorLegal, segH]
  · rw [hh]; exact h6 k

/-- `PlanRunArmsOrStarts`: a start 1 mm ahead of C and at C, refused slot 512, and a context that is not STOPPED. -/
theorem test_w_planRun :
    let p := planned .running none none
    let r := fun (ctx first code : Nat) (x : Int) => req 20 1 (byte ctx :: writeInt 2 first ++ byte code :: writeInt 4 x)
    AsksData (ask p (r 1 511 1 1)) (r 1 511 1 1) [] 20 ∧ (r 1 511 1 1).fieldLength = 8 ∧ p.ctxV.state = .stopped ∧
    p.travel.originState = .set ∧ 0 < aheadBy p.travel.direction 1 (chainageC p) ∧
    aheadBy p.travel.direction 0 (chainageC p) ≤ 0 ∧ 511 < fieldNat (r 1 512 0 0).fields 1 2 ∧
    AsksData (ask p (r 0 3 0 0)) (r 0 3 0 0) [] 20 ∧ p.ctxH.state ≠ .stopped ∧
    (fetch .v { plan := p.plan, stack := [], repeatLeft := 0 } 4).2 = .died .wrongKind 4 ∧
    (fetch .h { plan := ready.plan, stack := [], repeatLeft := 0 } 4).2 = .died .emptySlot 4 ∧
    (fetch .h { plan := p.plan, stack := [], repeatLeft := 0 } 4).2 = .reached 4 (.segmentH segH) := by decide

/-- A part whose context H is ARMED at a start, with slot 4 first. -/
def armedAt (start : Int) : Part := { ready with
  plan := [(4, { state := .loaded, code := none, contents := some (.segmentH segH) })]
  ctxH := { Context.afterReset with state := .armed, armed := some (4, start) } }

/-- A part with an ARMED context is legal. -/
theorem test_w_planLegal_armed (start : Int) : PlanLegal (armedAt start) := by
  have hs : ∀ k, slotAt (armedAt start).plan k =
      if 4 = k then { state := .loaded, code := none, contents := some (.segmentH segH) } else emptySlot := fun _ => rfl
  have hh : ∀ k, ¬ Holds (armedAt start).ctxH k := fun k => by simp [Holds, armedAt, Context.afterReset]
  have hv : ∀ k, ¬ Holds (armedAt start).ctxV k := fun k => by
    simp [Holds, armedAt, ready, State.reset, Part.afterReset, Context.afterReset]
  refine ⟨by simp [armedAt, Table.wf, emptySlot], by simp [armedAt], fun k => ?_, ?_, ?_, fun k => ?_,
    fun k hk => absurd hk (hh k), fun k hk => absurd hk (hv k)⟩
  · rw [hs]; split <;> simp [SlotLegal, DescriptorLegal, segH, emptySlot]
  · simp [ContextLegal, armedAt, Context.afterReset]
  · simp [ContextLegal, armedAt, ready, State.reset, Part.afterReset, Context.afterReset]
  · rw [hs]; split <;> simp [hh, hv, emptySlot]

/-- `PlanRunArmsOrStarts`: an advance that leaves the start 1 mm ahead of C, one that reaches it at a segment and one that
reaches it at a slot of no use, of a RUNNING and of a STOPPED context. -/
theorem test_w_arrival :
    let dies : Part := { armedAt 0 with ctxH := { (armedAt 0).ctxH with armed := some (5, 0) } }
    ((armedAt 1).ctx .h).state = .armed ∧ ((armedAt 1).ctx .h).armed = some (4, 1) ∧
    0 < aheadBy (armedAt 1).travel.direction 1 (chainageC (armedAt 1)) ∧
    aheadBy (armedAt 0).travel.direction 0 (chainageC (armedAt 0)) ≤ 0 ∧
    (fetch .h { plan := (armedAt 0).plan, stack := [], repeatLeft := 0 } 4).2 = .reached 4 (.segmentH segH) ∧
    (dies.ctx .h).armed = some (5, 0) ∧
    (fetch .h { plan := dies.plan, stack := [], repeatLeft := 0 } 5).2 = .died .emptySlot 5 ∧
    ((armedAt 1).ctx .v).state = .stopped ∧ ((planned .running none none).ctx .h).state = .running := by decide

/-- `PlanWakeAndStop`: a STARVED context with and without a link, one RUNNING, one STOPPED, and context 2. -/
theorem test_w_planWake :
    let seg := fun (l : Option Nat) => ({ slot := 3, shadow := .segmentH { segH with link := l }, start := 0 } : SegmentRecord)
    let p := fun (l : Option Nat) => planned .starved (some (seg l)) l
    let r := fun (kind ctx : Nat) => req kind 1 [byte ctx]
    AsksData (ask (p none) (r 21 0)) (r 21 0) [] 21 ∧ (r 21 0).fieldLength = 1 ∧ (p none).ctxH.state = .starved ∧
    (p none).ctxH.current = some (seg none) ∧ (slotAt (p none).plan 3).contents.bind segmentLink = none ∧
    (slotAt (p (some 4)).plan 3).contents.bind segmentLink = some 4 ∧ 2 ≤ fieldNat (r 21 2).fields 0 1 ∧
    (planned .running none none).ctxH.state = .running ∧ (p none).ctxV.state ∈ [ContextState.stopped, .armed, .dead] ∧
    AsksData (ask (p none) (r 22 0)) (r 22 0) [] 22 ∧ (p none).ctxH.state ≠ .stopped := by decide

/-- `SegmentEndsFollowTheLink` and `CatchUpLeavesNoEndBehind`: a RUNNING context that holds a segment, with and without a repeat
remaining and a link. -/
theorem test_w_segmentEnd :
    let p := fun (l : Option Nat) => planned .running none l
    (Part.ctx (p none) .h).state = .running ∧
    (Part.ctx (p none) .h).current = some { slot := 3, shadow := .segmentH segH, start := 0 } ∧
    (Part.ctx (p none) .h).repeatLeft = 0 ∧ (slotAt (p none).plan 3).contents.bind segmentLink = none ∧
    (slotAt (p (some 4)).plan 3).contents.bind segmentLink = some 4 ∧
    (fetch .h { plan := (p (some 4)).plan, stack := [], repeatLeft := 0 } 4).2 = .reached 4 (.segmentH segH) := by decide

/-- `CatchUpLeavesNoEndBehind`: a part whose context is 1 mm short of the end of its segment, with an advance at the front of its
queue, and one whose start lies 1 mm ahead. -/
theorem test_w_contextsAhead :
    let p : Part := { planned .running none none with travel := { ready.travel with origin := 599 } }
    PlanLegal p ∧ StoreLegal p ∧ ContextsAhead p ∧ ContextsAhead (armedAt 1) ∧
    (after (step { part := p, pending := [.odometerPulse true false noLines] })).map (fun q => q.ctxH.state) =
      some .starved := by
  refine ⟨test_w_planLegal_running none, ⟨by decide +kernel, fun c hc => by cases hc⟩, ?_, ?_, by decide +kernel⟩
  · intro i
    cases i
    · exact ⟨fun r _ hr => by cases hr; decide, fun _ _ h => by cases h⟩
    · exact ⟨fun _ h => (by cases h), fun _ _ h => by cases h⟩
  · intro i
    cases i
    · exact ⟨fun _ h => (by cases h), fun _ _ _ h => by cases h; decide⟩
    · exact ⟨fun _ h => (by cases h), fun _ _ h => by cases h⟩

/-- A part that runs slot 3 from the origin on for the second time, with C at a chainage. -/
def repeating (x : Int) : Part :=
  { planned .running (some { slot := 3, shadow := .segmentH segH, start := -600 }) none with
    travel := { ready.travel with origin := x } }

/-- A part that repeats a segment is legal. -/
theorem test_w_planLegal_repeating (x : Int) : PlanLegal (repeating x) := by
  obtain ⟨h1, h2, h3, -, h5, h6, h7, h8⟩ := test_w_planLegal_running none
  have hh : ∀ k, Holds (repeating x).ctxH k ↔ Holds (planned .running none none).ctxH k := fun k => by
    simp [Holds, repeating, planned, Context.afterReset]
  refine ⟨h1, h2, h3, ?_, h5, fun k => ?_, fun k hk => h7 k ((hh k).1 hk), h8⟩
  · simp only [ContextLegal, repeating, planned, Context.afterReset, segH]
    refine ⟨by simp, by simp, by simp, by simp, by simp, by simp, by simp, by simp, ?_⟩
    rintro r (h | h) <;> cases h <;> exact ⟨rfl, by decide, by decide⟩
  · rw [hh]; exact h6 k

/-- `GeometryAtCComesFromAHeldSegment`: C at the ends of the current and of the previous segment, behind both, and beyond the
current one; and a context that holds no segment. -/
theorem test_w_geometry :
    let cur : SegmentRecord := { slot := 3, shadow := .segmentH segH, start := 0 }
    let prev : SegmentRecord := { cur with start := -600 }
    let ahead := fun (x : Int) (r : SegmentRecord) => aheadBy (repeating x).travel.direction (chainageC (repeating x)) r.start
    (∀ x, ((repeating x).ctx .h).current = some cur ∧ ((repeating x).ctx .h).previous = some prev ∧
      ((repeating x).ctx .v).current = none) ∧ segmentLength cur.shadow = 600 ∧
    ahead 0 cur = 0 ∧ ahead 599 cur = 599 ∧ ahead 600 cur = 600 ∧ ¬ 0 ≤ ahead (-1) cur ∧ ahead (-1) prev = 599 ∧
    ahead (-600) prev = 0 ∧ ¬ 0 ≤ ahead (-601) prev ∧ (answerH (repeating 599)).1 = .inSegment ∧
    (answerH (repeating (-600))).1 = .inSegment ∧ (answerH (repeating 600)).1 = .holdEnd ∧
    (answerH (repeating (-601))).1 = .holdStart ∧ (answerV (repeating 0)).1 = .none := by
  refine ⟨fun x => ⟨rfl, rfl, rfl⟩, ?_⟩
  decide

/-! ### Witnesses: corrections, trim and targets -/

/-- `CorrGridAndWindow`: the ends of the base's and the spacing's ranges, an open window, and the last entry. -/
theorem test_w_corrGrid :
    let g := fun (b s : Int) => req 24 1 (writeInt 4 b ++ writeInt 4 s)
    let w := fun (x y m : Nat) => req 25 1 (writeInt 2 x ++ writeInt 2 y ++ [byte m])
    AsksData (ask ready (g (-99999999) 1000)) (g (-99999999) 1000) [] 24 ∧ (g (-99999999) 1000).fieldLength = 8 ∧
    fieldInt (g (-99999999) 1000).fields 0 4 = -99999999 ∧ fieldNat (g 0 20000).fields 4 4 = 20000 ∧
    20000 < fieldNat (g 0 20001).fields 4 4 ∧ ready.corr.window = none ∧ (windowed 1).corr.window ≠ none ∧
    AsksData (ask (windowed 1) (g 0 1000)) (g 0 1000) [] 24 ∧
    AsksData (ask ready (w 255 255 1)) (w 255 255 1) [] 25 ∧ (w 255 255 1).fieldLength = 5 ∧
    fieldNat (w 0 256 0).fields 2 2 = 256 ∧ fieldNat (w 0 0 2).fields 4 1 = 2 := by decide

/-- The corrections of a part with an open window are legal. -/
theorem test_w_correctionsLegal : CorrectionsLegal (windowed 1) := by
  refine ⟨rfl, by simp [windowed, ready, State.reset, Part.afterReset, Corrections.afterReset], by decide, by decide, by decide, ?_⟩
  intro w hw
  have : w = { owner := 1, first := 254, last := 255, cursor := 255, mode := .write } := by simpa [windowed, eq_comm] using hw
  subst this; decide

/-- `CorrDataWritesItsPairs`: one pair at the last entry, clamped, and of a bad length; no window, and another's. -/
theorem test_w_corrData :
    let r := fun (fs : List Byte) => req 26 1 fs
    let pair := writeInt 2 2001 ++ writeInt 2 (-32768)
    AsksRead (ask ready (r pair)) (r pair) [] 26 ∧ ready.corr.window = none ∧
    AsksRead (ask (windowed 3) (r pair)) (r pair) [] 26 ∧ (windowed 3).corr.window.map (·.owner) ≠ some 1 ∧
    AsksRead (ask (windowed 1) (r [0])) (r [0]) [] 26 ∧ (r [0]).fieldLength % 4 ≠ 0 ∧
    AsksRead (ask (windowed 1) (r pair)) (r pair) [] 26 ∧ (windowed 1).corr.window.map (·.owner) = some 1 ∧
    (r pair).fieldLength = 4 * 1 ∧ fieldInt (r pair).fields 0 2 = 2001 ∧ fieldInt (r pair).fields 2 2 = -32768 := by decide

/-- `LookUpsInterpolate`: the least spacing, an entry's own chainage and one between two set entries. -/
theorem test_w_lookUp :
    let c : Corrections := { entries := [(0, ⟨some 5, none⟩), (1, ⟨some 0, none⟩)], base := 0, spacing := 1000, window := none }
    1000 ≤ c.spacing ∧ (0 - c.base) - Int.fdiv (0 - c.base) c.spacing * c.spacing = 0 ∧
    (500 - c.base) - Int.fdiv (500 - c.base) c.spacing * c.spacing ≠ 0 ∧ Int.fdiv (-1 - c.base) c.spacing = -1 ∧
    (entryAt c.entries 0).lateral = some 5 ∧ (entryAt c.entries 1).lateral = some 0 := by decide

/-- `TrimSetUpAndDown`: −41, −40, 40 and 41, and the trim at and inside its ends. -/
theorem test_w_trim :
    let r := fun (v : Int) => req 28 1 (writeInt 1 v)
    let at_ := fun (v : Int) => ({ ready with trim := v } : Part)
    (∀ v ∈ [-41, -40, 40, 41], AsksControl (ask ready (r v)) (r v) [] 28 ∧ (r v).fieldLength = 1 ∧
      fieldInt (r v).fields 0 1 = v) ∧
    AsksControl (ask (at_ 40) (req 29 1 [])) (req 29 1 []) [] 29 ∧ AsksControl (ask (at_ 39) (req 29 1 [])) (req 29 1 []) [] 29 ∧
    AsksControl (ask (at_ (-40)) (req 30 1 [])) (req 30 1 []) [] 30 ∧ AsksControl (ask (at_ 39) (req 30 1 [])) (req 30 1 []) [] 30 ∧
    (req 29 1 []).fieldLength = 0 ∧ (req 30 1 []).fieldLength = 0 ∧ (-40 : Int) ≤ (at_ 40).trim ∧ (at_ 40).trim ≤ 40 := by
  decide

/-- `TargetsAreLimitedAndFollowTheReferenceRail`: the limits of the defaults, LN good and saturated, and each pair of levelling
channels. -/
theorem test_w_targets :
    let i := workedInputs 29987 1050 86 (-45) false 470 540 310
    0 ≤ i.settings.maxLift ∧ 0 ≤ i.settings.stepLimit ∧ 0 ≤ i.settings.liningLimit ∧ i.lnSaturated = false ∧
    ({ i with lnSaturated := true } : TargetInputs).lnSaturated = true ∧ i.previous = some 310 ∧ i.lvlSaturated = false ∧
    i.lvrSaturated = false ∧ ({ i with lvlSaturated := true } : TargetInputs).lvlSaturated = true ∧
    (i.geoH.bind (·.diverging)) = some (1500, 3000) ∧
    ({ i with geoH := none } : TargetInputs).geoH = none := by decide

/-- `TargetsAreLimitedAndFollowTheReferenceRail`: a computation for record 3, whose nearest record below with targets is 1, past
record 2 without targets; and one for record 1, with none below. -/
theorem test_w_targetInputs :
    let t : Targets := { shift := 310, liftL := 0, liftR := 0, aux := none, flags := noTargetFlags }
    let below := { recordOf 1 0 .tamped with targets := some t }
    let p := holding ready [below, recordOf 2 600 .passed, recordOf 3 1200 .pending]
    p.queue.records.Pairwise (fun x y => x.number < y.number) ∧ below ∈ p.queue.records ∧ below.number < 3 ∧
    below.targets = some t ∧ (∀ x ∈ p.queue.records, below.number < x.number → x.number < 3 → x.targets = none) ∧
    (∀ r ∈ p.queue.records, r.number < 1 → r.targets = none) := by decide

/-! ### Witnesses: the drive -/

/-- An axis that moves to a target of 0 with the settings' defaults. -/
def movingAxis : AxisState where
  phase := .moving
  started := true
  startReading := some 100
  target := some 0
  gain := some 40
  tolerance := some 5
  timer := .running 4000
  demand := 100

/-- A part whose axes are at rest but LINE, which is as given. -/
def lined (p : Part) (a : AxisState) : Part := { p with drive := { p.drive with axes := { p.drive.axes with line := a } } }

/-- A part whose LN channel reads a number of counts (160 units per 1024 counts). -/
def reading (p : Part) (counts : Int) : Part := { p with history := { p.history with ln := List.replicate 8 counts } }

/-- `MoveStartAndSamplesDriveTheAxes`: MOVE START with nothing started; a sample that settles the last axis, one that leaves it
MOVING, and one of a SETTLED axis whose timer has expired. -/
theorem test_w_axes :
    ready.lines.estop = false ∧ ready.drive.releaseTimer = none ∧
    (∀ x ∈ [Axis.line, .liftL, .liftR, .aux], (ready.drive.axes.get x).started = false) ∧
    (lined ready movingAxis).powered = true ∧ (lined ready movingAxis).phase = .ready ∧ movingAxis.started = true ∧
    movingAxis.phase = .moving ∧ movingAxis.target = some 0 ∧ movingAxis.gain = some 40 ∧ movingAxis.tolerance = some 5 ∧
    driveValue (recordSample (reading ready 32) .ln 32) .ln = 5 ∧ driveValue (recordSample (reading ready 39) .ln 39) .ln = 6 ∧
    ({ movingAxis with phase := .settled, timer := .expired } : AxisState).phase = .settled := by decide

/-- `MoveStartAndSamplesDriveTheAxes`: MOVE START with the line asserted, with an axis started, and in a release; RELEASE in each. -/
theorem test_w_release :
    let p := lined ready movingAxis
    let releasing : Part := { p with drive := { p.drive with releaseTimer := some 300 } }
    ({ p with lines := { p.lines with estop := true } } : Part).lines.estop = true ∧ p.lines.estop = false ∧
    p.drive.releaseTimer = none ∧ (p.drive.axes.get .line).started = true ∧ releasing.lines.estop = false ∧
    releasing.drive.releaseTimer ≠ none ∧ (∀ x ∈ [Axis.line, .liftL, .liftR, .aux], (ready.drive.axes.get x).started = false) := by
  decide

/-- `TheDriveTimersEndMovesAndReleases`: the timer of a MOVING axis with every other done and with another MOVING, of one
SETTLED, and a release that ends in RELEASING, outside it, and with none running. -/
theorem test_w_driveTimers :
    let settled : AxisState := { movingAxis with phase := .settled, demand := 0 }
    let two := { lined ready movingAxis with drive := { (lined ready movingAxis).drive with
      axes := { (lined ready movingAxis).drive.axes with liftL := movingAxis } } }
    let releasing := fun (p : Part) => { p with drive := { p.drive with releaseTimer := some 300 } }
    ((lined ready movingAxis).drive.axes.get .line).timer = .running 4000 ∧ movingAxis.phase = .moving ∧
    (∀ y ∈ [Axis.liftL, .liftR, .aux], ((lined ready movingAxis).drive.axes.get y).started = false) ∧
    (two.drive.axes.get .liftL).started = true ∧ (two.drive.axes.get .liftL).phase = .moving ∧ settled.phase ≠ .moving ∧
    settled.timer = .running 4000 ∧ (releasing ready).drive.releaseTimer ≠ none ∧ (releasing ready).cycle.phase ≠ .releasing ∧
    (releasing (cycling .releasing none)).cycle.phase = .releasing ∧
    (releasing (cycling .releasing none)).cycle.current = some 1 ∧ ready.drive.releaseTimer = none := by decide

/-! ### Witnesses: the cycle -/

/-- `CyclesStartOnTheRecordInPosition`: a record on which a cycle may start. -/
theorem test_w_mayStart :
    MayStart (holding ready [recordOf 1 30 .pending]) (recordOf 1 30 .pending) := by
  refine ⟨rfl, rfl, rfl, rfl, by decide, fun h hh => ?_, by decide, by decide⟩
  cases hh

/-- `CyclesStartOnTheRecordInPosition`: no record may start when none is in position. -/
theorem test_w_mayNotStart (r : SleeperRecord) : ¬ MayStart ready r := by
  rintro ⟨-, -, -, -, h, -⟩
  have : recordInPosition ready = none := by decide
  rw [this] at h; cases h

/-- `CyclesStartOnTheRecordInPosition`: MODE SET with the codes 0, 1 and 2, and CYCLE START in IDLE and in LOCKOUT. -/
theorem test_w_modeSet :
    let r := fun (c : Nat) => req 40 1 [byte c]
    let go := req 41 1 []
    let p := holding ready [recordOf 1 30 .pending]
    (∀ c ∈ [0, 1, 2], AsksControl (ask p (r c)) (r c) [] 40 ∧ (r c).fieldLength = 1 ∧ fieldNat (r c).fields 0 1 = c) ∧
    AsksControl (ask p go) go [] 41 ∧ go.fieldLength = 0 ∧ p.cycle.phase = .idle ∧ p.cycle.mode = .manual ∧
    AsksControl (ask (inPhase p .lockout) go) go [] 41 ∧ (inPhase p .lockout).cycle.phase ≠ .idle ∧
    ({ p with cycle := { p.cycle with mode := .auto } } : Part).cycle.mode = .auto ∧
    (recordOf 1 30 .pending).candidate.skip = none ∧
    p.queue.records.Pairwise (fun x y => x.number < y.number) := by decide

/-- A part in the folding step with unit LI awaited and the others LOWERED; its fold set names the fore arm of LI. -/
def folding (liFolded : Bool) : Part :=
  let p := cycling .positioning (some .fold)
  { p with
    lines := { p.lines with folds := { p.lines.folds with liF := liFolded } }
    drive := { p.drive with axes := { p.drive.axes with line := movingAxis } }
    cycle := { p.cycle with
      folding := .inProgress
      fold := { noArms with liF := true }
      units := { p.cycle.units with li := .undecided } } }

/-- `FoldingDecidesTheRoles`: the line that confirms the awaited unit, one that does not, the timeout, and the first
POSITIONED of a cycle with a unit to await. -/
theorem test_w_folding :
    let p := folding true
    let first : Part := { folding false with cycle := { (folding false).cycle with
      folding := .notBegun, values := some { insertions := 1, depth := 4000, threshold := 1100, squeezeTime := 800,
                                             foldSet := { noArms with liF := true } }
      units := ⟨.undecided, .undecided, .undecided, .undecided⟩ } }
    p.powered = true ∧ p.cycle.phase = .positioning ∧ p.cycle.folding = .inProgress ∧ p.cycle.phaseTimer = some .fold ∧
    p.lines.folds.get .liF = p.cycle.fold.get .liF ∧ p.lines.folds.get .liA = p.cycle.fold.get .liA ∧
    (folding false).lines.folds.get .liF ≠ (folding false).cycle.fold.get .liF ∧ (p.cycle.units.get .lo).role = .lowered ∧
    ready.cycle.phase ≠ .positioning ∧ first.cycle.phase = .positioning ∧ first.cycle.folding = .notBegun ∧
    first.lines.estop = false ∧ first.drive.releaseTimer = none ∧ (first.drive.axes.get .line).started = true ∧
    (∀ u ∈ allUnits, (first.cycle.units.get u).role = .undecided) ∧
    first.lines.folds.get .liF ≠ ({ noArms with liF := true } : ArmSet).liF := by decide

/-- `FoldingDecidesTheRoles`: a first POSITIONED at which every awaited unit confirms at once, with LI in the fold set and with
every unit in it. -/
theorem test_w_foldingAtOnce :
    let first := fun (folds : ArmSet) => ({ folding false with
      cycle := { (folding false).cycle with
        folding := .notBegun, units := ⟨.undecided, .undecided, .undecided, .undecided⟩
        values := some { insertions := 1, depth := 4000, threshold := 1100, squeezeTime := 800, foldSet := folds } } } : Part)
    let li : ArmSet := { noArms with liF := true, liA := true }
    (∀ folds ∈ [li, ⟨true, true, true, true, true, true, true, true⟩],
      (first folds).cycle.phase = .positioning ∧ (first folds).cycle.folding = .notBegun ∧ (first folds).lines.estop = false ∧
      (first folds).drive.releaseTimer = none ∧ ((first folds).drive.axes.get .line).started = true ∧
      (∀ u ∈ allUnits, ((first folds).cycle.units.get u).role = .undecided)) ∧
    (∀ u ∈ allUnits, (li.get (armsOf u).1 = true ∧ li.get (armsOf u).2 = true) ∨
      ((first li).lines.folds.get (armsOf u).1 = li.get (armsOf u).1 ∧
        (first li).lines.folds.get (armsOf u).2 = li.get (armsOf u).2)) ∧
    ¬ (li.get (armsOf .lo).1 = true ∧ li.get (armsOf .lo).2 = true) := by decide

/-- `AnInsertionGoesThroughItsPhases`: units 1 tenth short of the depth less the tolerance, each timer in its phase, a side below
the threshold, and a unit below the clear height. -/
theorem test_w_phases :
    let short := deep (cycling .penetrating (some .penetration)) 7798
    let squeezing := deep (cycling .squeezing (some (.squeeze 800))) 402
    (short.cycle.units.get .lo).role = .lowered ∧ unitDepth short .lo = 4000 - 100 - 1 ∧ short.powered = true ∧
    short.cycle.phase = .penetrating ∧ short.cycle.phaseTimer = some .penetration ∧
    (short.cycle.units.get .lo).atDepth = false ∧ ready.cycle.phase ≠ .penetrating ∧
    (squeezing.cycle.units.get .lo).squeezeEnded = false ∧ driveValue squeezing (pressureChannel .lo) < 1100 ∧
    squeezing.cycle.phase = .squeezing ∧ squeezing.cycle.phaseTimer = some (.squeeze 800) ∧ 200 < unitDepth squeezing .lo ∧
    (∀ u ∈ allUnits, (squeezing.cycle.units.get u).role = .lowered ∧ driveValue squeezing (pressureChannel u) < 1100) := by
  decide

/-- `AnInsertionGoesThroughItsPhases`: the entry to PENETRATING with one unit FOLDED, one exactly at the depth less the tolerance and
two 1 tenth short, all marked clear by the insertion before. -/
theorem test_w_penetrating :
    let u : UnitState := { UnitState.undecided with role := .lowered, squeezeEnded := true, clear := true }
    let p : Part := { cycling .raising none with
      history := { (cycling .raising none).history with
        dlo := List.replicate 8 7800, dli := List.replicate 8 7798, dri := List.replicate 8 7798 }
      cycle := { (cycling .raising none).cycle with units := ⟨u, u, u, { u with role := .folded }⟩ } }
    let short : UnitState := { u with squeezeEnded := false, clear := false }
    let units : PerUnit UnitState := ⟨{ short with atDepth := true }, short, short, { short with role := .folded }⟩
    unitDepth p .lo = 4000 - 100 ∧ unitDepth p .li = 4000 - 100 - 1 ∧ (p.cycle.values.map (·.depth)) = some 4000 ∧
    (enterPenetrating p).cycle.units = units ∧ (enterPenetrating p).cycle.vertical = ⟨.rest, .lower, .lower, .rest⟩ ∧
    (enterPenetrating p).cycle.phase = .penetrating := by decide

/-- `AnInsertionGoesThroughItsPhases`: every unit exactly at the depth less the tolerance; at the entry to SQUEEZING the left side
exactly at the threshold and the right one below it, and both at it; and a squeeze that ends with every unit clear. -/
theorem test_w_phasesAtOnce :
    let pressed := fun (l r : Int) => ({ deep (cycling .penetrating none) 7800 with
      history := { (deep (cycling .penetrating none) 7800).history with
        pl := List.replicate 8 l, pr := List.replicate 8 r } } : Part)
    let p := cycling .squeezing (some (.squeeze 800))
    (∀ u ∈ allUnits, unitDepth (pressed 17600 0) u = 4000 - 100) ∧
    ((pressed 17600 0).cycle.units.get .lo).role = .lowered ∧ ((pressed 17600 0).cycle.units.get .lo).squeezeEnded = false ∧
    1100 = driveValue (pressed 17600 0) (pressureChannel .lo) ∧ driveValue (pressed 17600 0) (pressureChannel .ro) < 1100 ∧
    (∀ u ∈ allUnits, 1100 ≤ driveValue (pressed 17600 17600) (pressureChannel u)) ∧
    (∀ u ∈ allUnits, unitDepth (deep p 400) u ≤ 200) ∧ p.cycle.phase = .squeezing ∧
    p.cycle.phaseTimer = some (.squeeze 800) ∧ p.cycle.values.map (·.insertions) = some 1 := by decide

/-- `SamplesMoveTheCycleOn`: samples that leave a unit 1 tenth short of its depth and that bring it there, that leave a unit 1
tenth below the clear height and that clear the last, and that bring a side to the threshold. -/
theorem test_w_cycleSamples :
    let at_ := fun (ph : CyclePhase) (c : Int) => recordSample (deep (cycling ph none) c) .dlo c
    let pressed := recordSample { cycling .squeezing none with history := { (cycling .squeezing none).history with
      pl := List.replicate 8 17600 } } .pl 17600
    (deep (cycling .raising none) 400).powered = true ∧ (deep (cycling .raising none) 400).phase = .ready ∧
    ((at_ .penetrating 7798).cycle.units.get .lo).role = .lowered ∧ unitDepth (at_ .penetrating 7798) .lo < 4000 - 100 ∧
    4000 - 100 ≤ unitDepth (at_ .penetrating 7800) .lo ∧ ((at_ .penetrating 7800).cycle.units.get .li).atDepth = false ∧
    200 < unitDepth (at_ .raising 402) .lo ∧ (∀ u ∈ allUnits, unitDepth (at_ .raising 400) u ≤ 200) ∧
    (at_ .raising 400).cycle.stopRequested = .none ∧ (at_ .raising 400).cycle.insertionsDone < 1 ∧
    1100 ≤ driveValue pressed .pl ∧ pressed.cycle.phase = .squeezing ∧ (pressed.cycle.units.get .ri).squeezeEnded = false ∧
    pressureChannel .ri ≠ .pl := by decide

/-- `SamplesMoveTheCycleOn`: in PENETRATING a unit at depth whose depth falls back while another is short, a unit that is FOLDED, and
the last unit short at depth already; a depth sample in SQUEEZING, and a pressure sample in RAISING. -/
theorem test_w_samplesMoveNothing :
    let deepUnit : UnitState := { UnitState.undecided with role := .lowered, atDepth := true }
    let folded : UnitState := { UnitState.undecided with role := .folded }
    let with_ := fun (lo others : UnitState) => recordSample { cycling .penetrating none with
      cycle := { (cycling .penetrating none).cycle with units := ⟨lo, others, others, others⟩ } } .dlo 402
    let short : UnitState := { UnitState.undecided with role := .lowered }
    ((with_ deepUnit short).cycle.units.get .lo).atDepth = true ∧ unitDepth (with_ deepUnit short) .lo < 4000 - 100 ∧
    ((with_ deepUnit short).cycle.units.get .li).role = .lowered ∧
    ((with_ deepUnit short).cycle.units.get .li).atDepth = false ∧ ((with_ folded short).cycle.units.get .lo).role ≠ .lowered ∧
    (∀ w ∈ allUnits, ((with_ deepUnit deepUnit).cycle.units.get w).atDepth = true) ∧
    (with_ deepUnit short).cycle.phase = .penetrating ∧ (recordSample (cycling .squeezing none) .dlo 402).cycle.phase = .squeezing ∧
    (recordSample (cycling .raising none) .pl 402).cycle.phase ≠ .squeezing := by decide

/-- `SamplesMoveTheCycleOn`: in LOCKOUT a sample that leaves a unit 1 tenth below the clear height, one that clears a unit of
several and one that clears the last, with the lockout raise running and not; and a pressure 1 unit below the threshold and
one at it that ends the last squeeze. -/
theorem test_w_lockoutSamples :
    let at_ := fun (raising : Bool) (others c : Int) =>
      recordSample { lockedOut raising false others with
        history := { (lockedOut raising false others).history with dlo := List.replicate 8 c } } .dlo c
    let ended : UnitState := { UnitState.undecided with role := .lowered, squeezeEnded := true }
    let pressed := fun (c : Int) => recordSample { cycling .squeezing none with
      history := { (cycling .squeezing none).history with pl := List.replicate 8 c }
      cycle := { (cycling .squeezing none).cycle with
        units := { (cycling .squeezing none).cycle.units with ri := ended, ro := ended } } } .pl c
    (at_ true 402 402).cycle.phase = .lockout ∧ 200 < unitDepth (at_ true 402 402) .lo ∧ unitDepth (at_ true 402 400) .lo ≤ 200 ∧
    200 < unitDepth (at_ true 402 400) .li ∧ (∀ u ∈ allUnits, unitDepth (at_ true 400 400) u ≤ 200) ∧
    (at_ false 402 400).cycle.lockoutRaise = false ∧ driveValue (pressed 17584) .pl < 1100 ∧
    1100 ≤ driveValue (pressed 17600) .pl ∧ ((pressed 17600).cycle.units.get .lo).squeezeEnded = false ∧
    ((pressed 17600).cycle.units.get .ri).squeezeEnded = true ∧ ((pressed 17600).cycle.units.get .ro).squeezeEnded = true ∧
    pressureChannel .lo = .pl ∧ pressureChannel .li = .pl := by decide

/-- `RaiseTimeoutsLockOut`: each timeout with a unit 1 tenth below the clear height and with every unit at it, with and without
UNIT_STUCK, and outside its phase. -/
theorem test_w_raiseTimeouts :
    let p := fun (c : Int) => deep (cycling .raising (some .raise)) c
    (p 402).powered = true ∧ (p 402).cycle.phase = .raising ∧ (p 402).cycle.phaseTimer = some .raise ∧
    (p 402).cycle.current = some 1 ∧ 200 < unitDepth (p 402) .lo ∧ (∀ u ∈ allUnits, unitDepth (p 400) u ≤ 200) ∧
    (p 400).cycle.stopRequested = .none ∧ ready.cycle.phase ≠ .raising ∧ ready.cycle.phase ≠ .lockout ∧
    (lockedOut true false 402).cycle.lockoutRaise = true ∧ (lockedOut true false 402).cycle.phaseTimer = some .raise ∧
    (lockedOut true false 402).cycle.phase = .lockout ∧ 200 < unitDepth (lockedOut true false 402) .lo ∧
    (lockedOut true true 402).cycle.causes.unitStuck = true ∧ (lockedOut true false 402).cycle.causes.unitStuck = false ∧
    (∀ u ∈ allUnits, unitDepth (lockedOut true false 400) u ≤ 200) := by decide

/-- `CycleStopEndsTheCycle`: CYCLE STOP in each cycle state, with a unit below the clear height and with every unit clear. -/
theorem test_w_cycleStop :
    let r := req 42 1 []
    let p := fun (ph : CyclePhase) (c : Int) => deep (cycling ph none) c
    (∀ ph ∈ [CyclePhase.idle, .positioning, .penetrating, .squeezing, .raising, .releasing, .lockout],
      AsksControl (ask (p ph 402) r) r [] 42 ∧ (p ph 402).cycle.phase = ph) ∧ r.fieldLength = 0 ∧
    (p .raising 402).cycle.stopRequested = .none ∧ 200 < unitDepth (p .penetrating 402) .lo ∧
    (∀ u ∈ allUnits, unitDepth (p .penetrating 400) u ≤ 200) ∧ (p .positioning 0).cycle.current = some 1 ∧
    (p .positioning 0).queue.aside = some { state := .pending, tampCount := 0, reported := false, failure := none } ∧
    (StopRequest.stopped ≠ .none) := by decide

/-- `UnitsRaiseAndFaultClear`: UNITS RAISE and FAULT CLEAR in LOCKOUT and in IDLE, with the line asserted and released, the
raise running and not, and a unit below the clear height and none. -/
theorem test_w_lockoutRequests :
    let up := req 43 1 []
    let clr := req 44 1 []
    (∀ p ∈ [ready, lockedOut true false 402, lockedOut false false 402, lockedOut false false 400,
        { lockedOut false false 400 with lines := { ready.lines with estop := true } }, inPhase ready .raising],
      AsksControl (ask p up) up [] 43 ∧ AsksControl (ask p clr) clr [] 44) ∧
    up.fieldLength = 0 ∧ clr.fieldLength = 0 ∧ ready.cycle.phase = .idle ∧ (lockedOut false false 402).cycle.phase = .lockout ∧
    (lockedOut true false 402).cycle.lockoutRaise = true ∧ (lockedOut false false 402).cycle.lockoutRaise = false ∧
    (lockedOut false false 402).lines.estop = false ∧ 200 < unitDepth (lockedOut false false 402) .lo ∧
    (∀ u ∈ allUnits, unitDepth (lockedOut false false 400) u ≤ 200) := by decide +kernel

/-- `TheEmergencyStopRestsEverything`: a part in a cycle, before penetration and after it has begun, with the line released; its
laws are `test_w_cycleLegal` and `test_w_queueLegal`. -/
theorem test_w_estop :
    let begun : Part := { cycling .squeezing none with cycle := { (cycling .squeezing none).cycle with penetrationBegun := true } }
    (cycling .positioning none).powered = true ∧ (cycling .positioning none).lines.estop = false ∧
    (cycling .positioning none).cycle.current = some 1 ∧ (cycling .positioning none).cycle.penetrationBegun = false ∧
    (cycling .positioning none).queue.aside = some { state := .pending, tampCount := 0, reported := false, failure := none } ∧
    begun.cycle.penetrationBegun = true ∧ begun.lines.estop = false ∧ ready.cycle.current = none := by decide

/-- `TheEmergencyStopRestsEverything`: LOCKOUT with the line released, without ESTOP and with ESTOP already held. -/
theorem test_w_estopHeld :
    let held : Part := { lockedOut true false 402 with cycle := { (lockedOut true false 402).cycle with
      causes := { noCauses with estop := true } } }
    (lockedOut true false 402).cycle.phase = .lockout ∧ (lockedOut true false 402).cycle.causes.estop = false ∧
    (lockedOut true false 402).cycle.current = none ∧ (lockedOut true false 402).lines.estop = false ∧
    held.cycle.phase = .lockout ∧ held.cycle.causes.estop = true ∧ held.cycle.current = none ∧ held.lines.estop = false ∧
    held.powered = true := by decide

/-! ### Witnesses: the settings store -/

/-- `SettingsAreWrittenAndRead`: an unnamed number, each setting with an effect, a value 1 beyond its range, and a save in
progress. -/
theorem test_w_settings :
    let w := fun (n : Nat) (v : Int) => req 8 1 (byte n :: writeInt 4 v)
    let g := fun (n : Nat) => req 9 1 [byte n]
    AsksData (ask ready (w 31 0)) (w 31 0) [] 8 ∧ (w 31 0).fieldLength = 5 ∧ settingOfNumber 31 = none ∧
    settingOfNumber (fieldNat (w 1 5000).fields 0 1) = some .pitch ∧ fieldInt (w 1 5000).fields 1 4 = 5000 ∧
    (ready.store.working.set .pitch 5000).consistent = true ∧ (ready.store.working.set .pitch 5001).consistent = false ∧
    (saving ready).store.save ≠ none ∧ ready.store.save = none ∧ ready.travel.originState = .set ∧
    ready.travel.motion = .standstill ∧ ready.ctxH.state = .stopped ∧ ready.scanner.front = some 9000 ∧
    settingOfNumber 3 = some .scannerOffset ∧ settingOfNumber 18 = some .positionTolerance ∧
    AsksRead (ask ready (g 58)) (g 58) [] 9 ∧ (g 58).fieldLength = 1 ∧
    settingOfNumber 58 = some (.sensitivity .pr) ∧ settingOfNumber 59 = none := by decide +kernel

/-- `SettingsAreWrittenAndRead`: the supervisor node changed, the part node changed to the authority holder, and a part without
origin. -/
theorem test_w_settingNodes :
    settingOfNumber 29 = some .partNode ∧ settingOfNumber 30 = some .supervisorNode ∧
    (ready.store.working.set .supervisorNode 15).consistent = true ∧ (15 : Int) ≠ ready.store.working.supervisorNode ∧
    (ready.store.working.set .partNode 3).consistent = true ∧ (3 : Int) ≠ ready.store.working.partNode ∧
    ({ ready with port := { ready.port with authority := 3 } } : Part).port.authority = 3 ∧
    State.reset.part.travel.originState = .none := by decide +kernel

/-- `TheStoreSavesLoadsAndCaptures`: a save begun and ended, a load of a valid and of an invalid copy, and of one with another
pitch at STANDSTILL and MOVING. -/
theorem test_w_store :
    let save := req 10 1 []
    let load := req 11 1 []
    let other := { ready with store := { ready.store with copy := (ready.store.working.set .pitch 2480).snapshot } }
    AsksData (ask ready save) save [] 10 ∧ save.fieldLength = 0 ∧ ready.store.save = none ∧ ready.cycle.phase = .idle ∧
    (saving ready).store.save = some ready.store.working.snapshot ∧ (saving ready).powered = true ∧
    AsksData (ask ready load) load [] 11 ∧ load.fieldLength = 0 ∧ copyValid ready.store.copy = true ∧
    copyValid other.store.copy = true ∧ (Settings.ofWords other.store.copy.words).pitch ≠ other.store.working.pitch ∧
    other.travel.motion = .standstill ∧ (movingPart other).travel.motion = .moving ∧ copyValid ⟨[], 0⟩ = false := by
  decide +kernel

/-- `TheStoreSavesLoadsAndCaptures`: a valid copy with another pitch, scanner offset, position tolerance and supervisor node, at
STANDSTILL with the origin SET and the contexts STOPPED, and without an origin. -/
theorem test_w_storeEffects :
    let new := (((ready.store.working.set .pitch 2480).set .scannerOffset 9010).set .positionTolerance 31).set .supervisorNode 15
    let p := { ready with store := { ready.store with copy := new.snapshot } }
    let load := req 11 1 []
    AsksData (ask p load) load [] 11 ∧ copyValid p.store.copy = true ∧ Settings.ofWords p.store.copy.words = new ∧
    new.pitch ≠ p.store.working.pitch ∧ new.scannerOffset ≠ p.store.working.scannerOffset ∧
    new.positionTolerance ≠ p.store.working.positionTolerance ∧ new.supervisorNode ≠ p.store.working.supervisorNode ∧
    p.travel.originState = .set ∧ p.travel.motion = .standstill ∧ p.ctxH.state = .stopped ∧ p.ctxV.state = .stopped ∧
    p.store.save = none ∧ p.cycle.phase = .idle := by
  decide +kernel

/-- `TheStoreSavesLoadsAndCaptures`: ZERO CAPTURE of channels 10 and 11, during a save and while MOVING. -/
theorem test_w_zeroCapture :
    let r := fun (c : Nat) => req 12 1 [byte c]
    (∀ p ∈ [ready, saving ready, movingPart ready], AsksData (ask p (r 10)) (r 10) [] 12) ∧ (r 10).fieldLength = 1 ∧
    fieldNat (r 10).fields 0 1 = 10 ∧ AsksData (ask ready (r 11)) (r 11) [] 12 ∧ 10 < fieldNat (r 11).fields 0 1 ∧
    (saving ready).store.save ≠ none ∧ (movingPart ready).travel.motion = .moving := by decide +kernel

/-- `SavedSettingsSurvivePowerLoss`: a consistent record that is being saved. -/
theorem test_w_saved : (st (saving ready)).part.powered = true ∧ StoreLegal (saving ready) ∧
    (saving ready).store.save = some { words := ready.store.working.toWords,
                                       checksum := checksumOf ready.store.working.toWords } := by
  refine ⟨by decide, ⟨by decide +kernel, fun c hc => ?_⟩, rfl⟩
  have : c = ready.store.working.snapshot := by simpa [saving, eq_comm] using hc
  subst this; rfl

/-! ### Witnesses: the laws of every moment -/

/-- A legal part of every block, with an advance at the front of its queue: the invariants' premises meet a next state. -/
theorem test_w_laws :
    let s : State := { part := ready, pending := [.odometerPulse true false noLines] }
    PortBounded s.part ∧ HistoriesLegal s.part ∧ StoreLegal s.part ∧ TrimLegal s.part ∧ CorrectionsLegal s.part ∧
    TravelLegal s.part ∧ DriveLegal s.part ∧ QueueLegal s.part ∧
    ∃ t, step s = .next t ∧ t.part.travel.pulses = 1 := by
  refine ⟨by unfold PortBounded; decide, ?_, ⟨by decide +kernel, fun c hc => by cases hc⟩, by unfold TrimLegal; decide, ?_,
    by unfold TravelLegal; decide, ?_, queueLegal_of _ rfl (by decide), _, rfl, by decide⟩
  · intro ch; cases ch <;> decide
  · exact ⟨rfl, by simp [ready, State.reset, Part.afterReset, Corrections.afterReset], by decide, by decide, by decide,
      fun w hw => by cases hw⟩
  · refine ⟨fun x => by cases x <;> (unfold AxisLegal; decide), fun h => ?_⟩
    rcases h with h | h <;> cases h

end Sys2Proof.Tests
end

section
/-! PROOF. The obstacle patterns (R31, R32): what it takes for a slot to match, what the union of the fold sets holds, which
override counts and which skip cause is chosen; and from these the candidate of a classification event. -/

namespace Sys2Proof.Machine
open Sys2Proof

/-! ### Sets of arms -/

theorem allArms_mem (x : Arm) : x ∈ allArms := by cases x <;> decide

@[simp] theorem PerArm.get_noArms (x : Arm) : PerArm.get noArms x = false := by cases x <;> rfl

@[simp] theorem PerArm.get_union (a b : ArmSet) (x : Arm) :
    PerArm.get (ArmSet.union a b) x = (PerArm.get a x || PerArm.get b x) := by cases x <;> rfl

theorem ArmSet.isFull_iff (a : ArmSet) : ArmSet.isFull a = true ↔ ∀ x, PerArm.get a x = true := by
  rw [ArmSet.isFull, List.all_eq_true]
  exact ⟨fun h x => h x (allArms_mem x), fun h x _ => h x⟩

theorem ArmSet.not_isFull_iff (a : ArmSet) : ¬ ArmSet.isFull a = true ↔ ∃ x, PerArm.get a x = false := by
  simp [ArmSet.isFull_iff]

/-! ### Matching one pattern (R31) -/

/-- A mask line that is off, or a value equal to the level, as an implication. -/
theorem lineAgrees_iff (mask value level : Bool) : (!mask || value == level) = true ↔ (mask = true → level = value) := by
  cases mask
  · simp
  · simpa using eq_comm

theorem cellAgrees_iff (pc : PatternCell) (l : ScanLines) :
    cellAgrees pc l = true ↔
      (pc.mask.se = true → l.se = pc.value.se) ∧ (pc.mask.fl = true → l.fl = pc.value.fl) ∧
      (pc.mask.fr = true → l.fr = pc.value.fr) ∧ (pc.mask.cm = true → l.cm = pc.value.cm) := by
  simp only [cellAgrees, Bool.and_eq_true, lineAgrees_iff, and_assoc]

/-- R31: the window cell that stands `index` cells ahead of the first body cell. -/
def cellAhead (d : Direction) (window : List Cell) (first index : Int) : Option Cell :=
  window.find? fun w => w.position == first + dirSign d * 10 * index

/-- One more pattern cell: its window cell stands there and agrees, and so do the cells after it. -/
theorem cellsAgree_cons_iff (d : Direction) (window : List Cell) (first index : Int) (pc : PatternCell)
    (rest : List PatternCell) :
    cellsAgree d window first index (pc :: rest) = true ↔
      (∃ w, cellAhead d window first index = some w ∧ cellAgrees pc w.lines = true) ∧
        cellsAgree d window first (index + 1) rest = true := by
  rw [cellsAgree, Bool.and_eq_true]
  refine and_congr_left' ?_
  change (match cellAhead d window first index with
    | none => false
    | some w => cellAgrees pc w.lines) = true ↔ _
  cases cellAhead d window first index <;> simp

theorem cellsAgree_iff (d : Direction) (window : List Cell) (first : Int) (cells : List PatternCell) (index : Int) :
    cellsAgree d window first index cells = true ↔
      ∀ (k : Nat) (pc : PatternCell), cells[k]? = some pc →
        ∃ w, cellAhead d window first (index + k) = some w ∧ cellAgrees pc w.lines = true := by
  induction cells generalizing index with
  | nil => simp [cellsAgree]
  | cons head rest ih =>
    have shift : ∀ k : Nat, index + 1 + (k : Int) = index + ((k + 1 : Nat) : Int) := by omega
    rw [cellsAgree_cons_iff, ih]
    simp only [shift]
    constructor
    · rintro ⟨hhead, hrest⟩ k pc hk
      cases k with
      | zero =>
        obtain rfl : head = pc := by simpa using hk
        simpa using hhead
      | succ k => exact hrest k pc (by simpa using hk)
    · intro h
      exact ⟨by simpa using h 0 head rfl, fun k pc hk => h (k + 1) pc (by simpa using hk)⟩

theorem patternMatches_iff (d : Direction) (window : List Cell) (first : Int) (pt : Pattern) :
    patternMatches d window first pt = true ↔
      pt.enabled = true ∧ ∀ (k : Nat) (pc : PatternCell), pt.cells[k]? = some pc →
        ∃ w, cellAhead d window first (pt.anchor + k) = some w ∧ cellAgrees pc w.lines = true := by
  rw [patternMatches, Bool.and_eq_true, cellsAgree_iff]

/-! ### Combining the matches (R32) -/

@[simp] theorem PerSlot.toList_map {α β : Type} (f : α → β) (t : PerSlot α) : (t.map f).toList = t.toList.map f := rfl

/-- Something that a member of a filtered list has. -/
theorem exists_mem_filter_iff {α : Type} (p : α → Bool) (q : α → Prop) (l : List α) :
    (∃ a ∈ l.filter p, q a) ↔ ∃ a ∈ l, p a = true ∧ q a := by
  simp only [List.mem_filter, and_assoc]

theorem anyAction_iff (matching : List Pattern) (a : PatternAction) :
    (matching.any fun pt => pt.action = a) = true ↔ ∃ pt ∈ matching, pt.action = a := by
  simp only [List.any_eq_true, decide_eq_true_eq]

/-- What the fold gathers, from any set it starts with. -/
theorem foldUnion_from_iff (x : Arm) (matching : List Pattern) (acc : ArmSet) :
    PerArm.get (matching.foldl (fun acc pt => if pt.action = .fold then ArmSet.union acc pt.foldSet else acc) acc) x = true ↔
      PerArm.get acc x = true ∨ ∃ pt ∈ matching, pt.action = .fold ∧ PerArm.get pt.foldSet x = true := by
  induction matching generalizing acc with
  | nil => simp
  | cons pt rest ih =>
    rw [List.foldl_cons, ih]
    by_cases hf : pt.action = .fold
    · simp [hf, or_assoc]
    · simp [hf]

theorem foldUnion_iff (matching : List Pattern) (x : Arm) :
    PerArm.get (foldUnion matching) x = true ↔
      ∃ pt ∈ matching, pt.action = .fold ∧ PerArm.get pt.foldSet x = true := by
  rw [foldUnion, foldUnion_from_iff]
  simp

/-- The first matching slot with an override gives it. -/
theorem insertionsOf_first (st : Settings) (before after : List Pattern) (pt : Pattern) (hpt : pt.insertions ≠ 0)
    (hbefore : ∀ x ∈ before, x.insertions = 0) : insertionsOf st (before ++ pt :: after) = pt.insertions := by
  have hnone : before.find? (fun pt => pt.insertions != 0) = none := by simpa using hbefore
  simp [insertionsOf, List.find?_append, hnone, hpt]

theorem insertionsOf_default (st : Settings) (matching : List Pattern) (h : ∀ pt ∈ matching, pt.insertions = 0) :
    insertionsOf st matching = st.defaultInsertions.toNat := by
  have hnone : matching.find? (fun pt => pt.insertions != 0) = none := by simpa using h
  simp [insertionsOf, hnone]

theorem classOf_longBody_iff (st : Settings) (length : Nat) :
    classOf st length = .longBody ↔ st.longLimit ≤ (length : Int) := by
  unfold classOf
  split_ifs with hlong hwide <;> simp [hlong]

/-! The skip cause: the causes in their order, each given up only when the one before it does not apply. -/

section
variable (st : Settings) (cls : SleeperClass) (folds : ArmSet) (matching : List Pattern)

theorem skipOf_allFolded_iff : skipOf st cls folds matching = some .allFolded ↔ ArmSet.isFull folds = true := by
  unfold skipOf
  split_ifs with hfull <;> simp [hfull]

theorem skipOf_pattern_iff :
    skipOf st cls folds matching = some .pattern ↔
      ¬ ArmSet.isFull folds = true ∧ ∃ pt ∈ matching, pt.action = .skip := by
  rw [← anyAction_iff]
  unfold skipOf
  split_ifs with hfull hskip hlong
  · simp [hfull]
  · exact iff_of_true rfl ⟨hfull, hskip⟩
  · simp [hskip]
  · simp [hskip]

theorem skipOf_longBody_iff :
    skipOf st cls folds matching = some .longBody ↔
      ¬ ArmSet.isFull folds = true ∧ (¬ ∃ pt ∈ matching, pt.action = .skip) ∧ cls = .longBody ∧ st.longBodyAction = 0 := by
  rw [← anyAction_iff]
  unfold skipOf
  split_ifs with hfull hskip hlong
  · simp [hfull]
  · simp [hskip]
  · exact iff_of_true rfl ⟨hfull, hskip, hlong⟩
  · simp [hlong]

theorem skipOf_ne_manual : skipOf st cls folds matching ≠ some .manual := by
  unfold skipOf
  split_ifs <;> simp

end

/-! ### The candidate -/

/-- Settles O21: the window cell of each pattern cell by induction on the pattern's cells, the fold set by induction on the
matching slots, and the skip cause along its order of causes. -/
theorem patternsMatchAndCombine : Obligations.PatternsMatchAndCombine := by
  unfold Obligations.PatternsMatchAndCombine
  refine ⟨fun d window first pt => ?_, fun st d sc b => ?_⟩
  · simp only [patternMatches_iff, cellAgrees_iff]
    rfl
  · intro c hit slots
    have hfolds : c.foldSet = foldUnion (slots.filter hit) := rfl
    have hinsertions : c.insertions = insertionsOf st (slots.filter hit) := rfl
    have hskip : c.skip = skipOf st (classOf st b.length) c.foldSet (slots.filter hit) := rfl
    have hhalt : c.halt = (slots.filter hit).any fun pt => pt.action = .halt := rfl
    refine ⟨PerSlot.toList_map _ _, fun x => ?_, ?_, ?_, fun hnone => ?_, ?_, ?_, ?_, ?_⟩
    · rw [hfolds, foldUnion_iff, exists_mem_filter_iff]
    · rw [hhalt, anyAction_iff, exists_mem_filter_iff]
    · intro before pt after hslots hpt hover hbefore
      have hsplit : slots.filter hit = before.filter hit ++ pt :: after.filter hit := by
        rw [hslots, List.filter_append, List.filter_cons_of_pos hpt]
      rw [hinsertions, hsplit]
      refine insertionsOf_first st _ _ pt hover fun x hx => ?_
      obtain ⟨hmem, hhit⟩ := List.mem_filter.mp hx
      exact hbefore x hmem hhit
    · rw [hinsertions]
      refine insertionsOf_default st _ fun pt hpt => ?_
      obtain ⟨hmem, hhit⟩ := List.mem_filter.mp hpt
      exact hnone pt hmem hhit
    · rw [hskip, skipOf_allFolded_iff, ArmSet.isFull_iff]
    · rw [hskip, skipOf_pattern_iff, ArmSet.not_isFull_iff, exists_mem_filter_iff]
    · rw [hskip, skipOf_longBody_iff, ArmSet.not_isFull_iff, exists_mem_filter_iff, classOf_longBody_iff]
      simp only [not_exists, not_and, ne_eq]
    · exact hskip ▸ skipOf_ne_manual st _ _ _

end Sys2Proof.Machine
end

section
/-! PROOF. The look-up in the front correction table (R97): where a chainage lies on the grid, that a rounded share of the
difference of two values stays between them, and what the look-up gives at an entry, between two entries and elsewhere. -/

namespace Sys2Proof.Machine
open Sys2Proof

/-! ### The one rounding (00_scope.md) -/

theorem roundDiv_of_nonneg {n d : Int} (hn : 0 ≤ n) (hd : 0 < d) : roundDiv n d = (2 * n + d) / (2 * d) := by
  have hsign : decide (n < 0) = decide (d < 0) := by simp [hn.not_gt, hd.not_gt]
  simp [roundDiv, hsign, abs_of_nonneg hn, abs_of_pos hd]

theorem roundDiv_of_neg {n d : Int} (hn : n < 0) (hd : 0 < d) : roundDiv n d = -((2 * -n + d) / (2 * d)) := by
  have hsign : decide (n < 0) ≠ decide (d < 0) := by simp [hn, hd.not_gt]
  simp [roundDiv, hsign, abs_of_neg hn, abs_of_pos hd]

/-- Rounding to the nearest never falls below an integer that the quotient does not fall below. -/
theorem le_roundDiv {m n d : Int} (hd : 0 < d) (h : m * d ≤ n) : m ≤ roundDiv n d := by
  rcases le_or_gt 0 n with hn | hn
  · rw [roundDiv_of_nonneg hn hd, Int.le_ediv_iff_mul_le (by omega)]
    linarith
  · have hq : (2 * -n + d) / (2 * d) < -m + 1 := by
      rw [Int.ediv_lt_iff_lt_mul (by omega)]
      linarith
    rw [roundDiv_of_neg hn hd]
    omega

theorem roundDiv_le {m n d : Int} (hd : 0 < d) (h : n ≤ m * d) : roundDiv n d ≤ m := by
  rcases le_or_gt 0 n with hn | hn
  · have hq : (2 * n + d) / (2 * d) < m + 1 := by
      rw [Int.ediv_lt_iff_lt_mul (by omega)]
      linarith
    rw [roundDiv_of_nonneg hn hd]
    omega
  · have hq : -m ≤ (2 * -n + d) / (2 * d) := by
      rw [Int.le_ediv_iff_mul_le (by omega)]
      linarith
    rw [roundDiv_of_neg hn hd]
    omega

/-- A value plus a rounded share of the way to a second value lies between the two. -/
theorem interpolation_between (v w : Int) {rem d : Int} (h0 : 0 ≤ rem) (h1 : rem < d) :
    min v w ≤ v + roundDiv ((w - v) * rem) d ∧ v + roundDiv ((w - v) * rem) d ≤ max v w := by
  have hd : 0 < d := by omega
  rcases le_total v w with hvw | hvw
  · have hlow : 0 ≤ roundDiv ((w - v) * rem) d := le_roundDiv hd (by nlinarith)
    have hhigh : roundDiv ((w - v) * rem) d ≤ w - v := roundDiv_le hd (by nlinarith)
    omega
  · have hlow : w - v ≤ roundDiv ((w - v) * rem) d := le_roundDiv hd (by nlinarith)
    have hhigh : roundDiv ((w - v) * rem) d ≤ 0 := roundDiv_le hd (by nlinarith)
    omega

/-! ### The look-up (R97) -/

/-- R97: the index of the grid interval that a chainage lies in. -/
def gridIndex (c : Corrections) (x : Int) : Int := Int.fdiv (x - c.base) c.spacing

/-- R97: how far a chainage lies beyond the entry of its interval. -/
def gridRemainder (c : Corrections) (x : Int) : Int := x - c.base - gridIndex c x * c.spacing

/-- R97: the half of an entry, when its index lies within 0..255 and the half is set. -/
def gridValue (c : Corrections) (half : CorrEntry → Option Int) (k : Int) : Option Int :=
  if 0 ≤ k ∧ k ≤ 255 then half (entryAt c.entries k.toNat) else none

section
variable {c : Corrections} {half : CorrEntry → Option Int} {x : Int}

theorem gridIndex_eq_ediv (hs : 0 < c.spacing) : gridIndex c x = (x - c.base) / c.spacing :=
  Int.fdiv_eq_ediv_of_nonneg _ hs.le

theorem gridRemainder_eq_emod (hs : 0 < c.spacing) : gridRemainder c x = (x - c.base) % c.spacing := by
  rw [gridRemainder, gridIndex_eq_ediv hs, Int.emod_def, mul_comm]

theorem gridRemainder_nonneg (hs : 0 < c.spacing) : 0 ≤ gridRemainder c x := by
  rw [gridRemainder_eq_emod hs]
  exact Int.emod_nonneg _ hs.ne'

theorem gridRemainder_lt (hs : 0 < c.spacing) : gridRemainder c x < c.spacing := by
  rw [gridRemainder_eq_emod hs]
  exact Int.emod_lt_of_pos _ hs

/-- R97, steps 3 to 5, in the terms above. -/
theorem lookUp_eq (hs : 0 < c.spacing) :
    lookUp c half x = (gridValue c half (gridIndex c x)).bind fun v =>
      if gridRemainder c x = 0 then some v
      else (gridValue c half (gridIndex c x + 1)).map fun w =>
        v + roundDiv ((w - v) * gridRemainder c x) c.spacing := by
  simp only [gridRemainder, gridIndex_eq_ediv hs, lookUp]
  change (match gridValue c half ((x - c.base) / c.spacing) with | none => _ | some v => _) = _
  cases gridValue c half ((x - c.base) / c.spacing) with
  | none => rfl
  | some v =>
    refine if_congr Iff.rfl rfl ?_
    change (match gridValue c half ((x - c.base) / c.spacing + 1) with | none => _ | some w => _) = _
    cases gridValue c half ((x - c.base) / c.spacing + 1) <;> rfl

theorem lookUp_of_unset (hs : 0 < c.spacing) (hi : gridValue c half (gridIndex c x) = none) : lookUp c half x = none := by
  rw [lookUp_eq hs, hi, Option.bind_none]

theorem lookUp_at_entry (hs : 0 < c.spacing) (hrem : gridRemainder c x = 0) :
    lookUp c half x = gridValue c half (gridIndex c x) := by
  simp [lookUp_eq hs, hrem]

theorem lookUp_of_next_unset (hs : 0 < c.spacing) (hrem : gridRemainder c x ≠ 0)
    (hnext : gridValue c half (gridIndex c x + 1) = none) : lookUp c half x = none := by
  simp [lookUp_eq hs, hrem, hnext]

theorem lookUp_between {v w : Int} (hs : 0 < c.spacing) (hrem : gridRemainder c x ≠ 0)
    (hi : gridValue c half (gridIndex c x) = some v) (hnext : gridValue c half (gridIndex c x + 1) = some w) :
    lookUp c half x = some (v + roundDiv ((w - v) * gridRemainder c x) c.spacing) := by
  simp [lookUp_eq hs, hrem, hi, hnext]

end

/-- Settles O39: the look-up by the entries on both sides of the chainage; the interpolated value lies between theirs because
the remainder lies within one spacing and rounding keeps integer bounds. -/
theorem lookUpsInterpolate : Obligations.LookUpsInterpolate := by
  unfold Obligations.LookUpsInterpolate
  intro c half x hspacing
  have hs : 0 < c.spacing := by omega
  have hrem0 : 0 ≤ gridRemainder c x := gridRemainder_nonneg hs
  have hrem1 : gridRemainder c x < c.spacing := gridRemainder_lt hs
  exact ⟨hrem0, hrem1, lookUp_of_unset hs, lookUp_at_entry hs, lookUp_of_next_unset hs,
    fun v w hrem hi hnext => ⟨lookUp_between hs hrem hi hnext, interpolation_between v w hrem0 hrem1⟩⟩

end Sys2Proof.Machine
end

section
/-! PROOF. The trim (R105 to R107): the range of a signed field, what a trim request makes of a value inside and beyond the
ends, and the three requests. -/

namespace Sys2Proof.Machine
open Sys2Proof Sys2Proof.Safety

/-! ### The range of a signed field (R175) -/

theorem readNat_lt (bs : List Byte) : readNat bs < 256 ^ bs.length := by
  induction bs with
  | nil => simp [readNat]
  | cons b rest ih =>
    have hb : b.toNat < 256 := b.isLt
    rw [readNat, List.length_cons, pow_succ]
    omega

theorem readInt_bounds (bs : List Byte) :
    -(256 ^ bs.length : Int) ≤ 2 * readInt bs ∧ 2 * readInt bs < 256 ^ bs.length := by
  have hlt : (readNat bs : Int) < 256 ^ bs.length := by exact_mod_cast readNat_lt bs
  have hhalf : 2 * readNat bs < 256 ^ bs.length ↔ 2 * (readNat bs : Int) < 256 ^ bs.length := by norm_cast
  simp only [readInt, hhalf]
  split_ifs with h <;> omega

/-- R175: a signed field of one byte. -/
theorem fieldInt_byte_bounds (fs : List Byte) (at_ : Nat) : -128 ≤ fieldInt fs at_ 1 ∧ fieldInt fs at_ 1 ≤ 127 := by
  obtain ⟨hlow, hhigh⟩ := readInt_bounds (fieldBytes fs at_ 1)
  have hlen : (fieldBytes fs at_ 1).length ≤ 1 := List.length_take_le _ _
  have hpow : (256 : Int) ^ (fieldBytes fs at_ 1).length ≤ 256 ^ 1 := pow_le_pow_right₀ (by norm_num) hlen
  rw [fieldInt]
  omega

/-! ### The trim of a value (R106, R107) -/

section
variable {p : Part} {v : Int}

theorem setTrim_within (hlow : -40 ≤ v) (hhigh : v ≤ 40) : setTrim p v = .ok { p with trim := v } (writeInt 1 v) := by
  simp [setTrim, clampTo, hlow.not_gt, hhigh.not_gt, Answer.ok]

theorem setTrim_below (h : v < -40) : setTrim p v = ⟨{ p with trim := -40 }, .clamped, writeInt 1 (-40)⟩ := by
  simp [setTrim, clampTo, h, h.ne']

theorem setTrim_above (h : 40 < v) : setTrim p v = ⟨{ p with trim := 40 }, .clamped, writeInt 1 40⟩ := by
  have hlow : ¬ v < -40 := by omega
  simp [setTrim, clampTo, h, hlow, h.ne]

end

/-! ### The three requests -/

section
variable {s : State} {r : Request} {rest : List Request}

/-- The next state that a trim request to a value gives: its answer on the part as found, with the reply in the queue. -/
def trimmed (s : State) (r : Request) (rest : List Request) (v : Int) : State :=
  s.withPart (repliedPart s.part.store.working.partNode r (setTrim (found s.part r rest) v))

theorem trimmed_within {v : Int} (hlow : -40 ≤ v) (hhigh : v ≤ 40) :
    trimmed s r rest v = replied s { found s.part r rest with trim := v } r 0 (writeInt 1 v) := by
  rw [trimmed, setTrim_within hlow hhigh, repliedPart_ok]

theorem trimmed_below {v : Int} (h : v < -40) :
    trimmed s r rest v = replied s { found s.part r rest with trim := -40 } r 1 (writeInt 1 (-40)) := by
  rw [trimmed, setTrim_below h, repliedPart_clamped]

theorem trimmed_above {v : Int} (h : 40 < v) :
    trimmed s r rest v = replied s { found s.part r rest with trim := 40 } r 1 (writeInt 1 40) := by
  rw [trimmed, setTrim_above h, repliedPart_clamped]

theorem exec_trimSet (h : AsksControl s r rest 28) (hf : r.fieldLength = 1) :
    exec .trimSet s = .next (trimmed s r rest (fieldInt r.fields 0 1)) := control_taken h rfl hf

theorem exec_trimUp (h : AsksControl s r rest 29) (hf : r.fieldLength = 0) :
    exec .trimUp s = .next (trimmed s r rest (s.part.trim + 1)) := control_taken h rfl hf

theorem exec_trimDown (h : AsksControl s r rest 30) (hf : r.fieldLength = 0) :
    exec .trimDown s = .next (trimmed s r rest (s.part.trim - 1)) := control_taken h rfl hf

/-- The trim that a part has already. -/
theorem found_with_trim {v : Int} (h : s.part.trim = v) :
    { found s.part r rest with trim := v } = found s.part r rest := by
  subst h; rfl

end

/-- Settles O40: each request takes a value to the trim, and the value lies within the ends, below them or above them. -/
theorem trimSetUpAndDown : Obligations.TrimSetUpAndDown := by
  unfold Obligations.TrimSetUpAndDown
  refine ⟨fun s r rest h hf => ?_, fun s r rest h hf hlegal => ?_, fun s r rest h hf hlegal => ?_⟩
  · rw [exec_trimSet h hf]
    exact ⟨fieldInt_byte_bounds _ _, fun hlow hhigh => congrArg _ (trimmed_within hlow hhigh),
      fun hv => congrArg _ (trimmed_below hv), fun hv => congrArg _ (trimmed_above hv)⟩
  · obtain ⟨hlow, hhigh⟩ := hlegal
    rw [exec_trimUp h hf]
    refine ⟨fun hlt => congrArg _ (trimmed_within (by omega) (by omega)), fun hend => ?_⟩
    rw [trimmed_above (by omega), found_with_trim hend]
  · obtain ⟨hlow, hhigh⟩ := hlegal
    rw [exec_trimDown h hf]
    refine ⟨fun hlt => congrArg _ (trimmed_within (by omega) (by omega)), fun hend => ?_⟩
    rw [trimmed_below (by omega), found_with_trim hend]

end Sys2Proof.Machine
end

section
/-! PROOF. The target computation (R112 to R127): the previous shift that the queue names, the values of the stages as the
manual writes them, the lining shift under its two limits, the rail lifts for each pair of levelling channels, and the
auxiliary lift. -/

namespace Sys2Proof.Machine
open Sys2Proof

/-- "Clamped to lo..hi" for an interval that is not empty. -/
theorem clampTo_eq_max_min {lo hi : Int} (h : lo ≤ hi) (x : Int) : clampTo lo hi x = max lo (min hi x) := by
  unfold clampTo
  split_ifs <;> omega

/-! ### The previous shift (R117) -/

theorem previousShift_of_no_targets {rs : List SleeperRecord} {n : Nat}
    (h : ∀ r ∈ rs, r.number < n → r.targets = none) : previousShift rs n = none := by
  rw [previousShift, Option.map_eq_none_iff, List.findSome?_eq_none_iff]
  intro r hr
  split_ifs with hlt
  · exact h r (List.mem_reverse.mp hr) hlt
  · rfl

/-- In a queue in order of number, the records behind the nearest one with targets are those above it, and none of them
gives a shift. -/
theorem previousShift_of_nearest {rs : List SleeperRecord} {n : Nat} {r : SleeperRecord} {t : Targets}
    (hsorted : rs.Pairwise fun x y => x.number < y.number) (hr : r ∈ rs) (hn : r.number < n) (ht : r.targets = some t)
    (hnearest : ∀ x ∈ rs, r.number < x.number → x.number < n → x.targets = none) :
    previousShift rs n = some t.shift := by
  obtain ⟨before, after, rfl⟩ := List.append_of_mem hr
  obtain ⟨-, hbehind, -⟩ := List.pairwise_append.mp hsorted
  have habove : ∀ x ∈ after, r.number < x.number := fun _ hx => List.rel_of_pairwise_cons hbehind hx
  have hafter : previousShift after n = none :=
    previousShift_of_no_targets fun x hx => hnearest x (by simp [hx]) (habove x hx)
  rw [previousShift, Option.map_eq_none_iff] at hafter
  simp [previousShift, List.findSome?_append, hafter, hn, ht]

/-! ### The values of the stages -/

namespace TargetInputs
variable (i : TargetInputs)

/-- R114: the design cant at C, 0 without an H answer. -/
def cant : Int :=
  match i.geoH with
  | none => 0
  | some g => designCant g

/-- R115: the design lateral versine, 0 without an H answer. -/
def lateralDesign : Int :=
  match i.geoH with
  | none => 0
  | some g => designVersine i.settings g

/-- R118: the raw shift. -/
def rawShift : Int := i.m - i.lateralDesign - lateralFrontTerm i.settings i.fA

/-- R118: the shift under the step limit alone. -/
def stepShift : Int := stepLimited i.settings i.previous i.rawShift

/-- R120: the base lift of the V answer, 0 without one. -/
def baseLift : Int :=
  match i.geoV with
  | none => 0
  | some g => g.baseLift

/-- R121: the vertical curvature of the V answer, 0 without one. -/
def curvature : Int :=
  match i.geoV with
  | none => 0
  | some g => g.curvature

/-- R120: the effective base. -/
def base : Int := max 0 (min 1500 (i.baseLift + 5 * i.trim))

/-- R124: a rail's own lift, from its measured versine, the design versine and the front term. -/
def profileLift (mv : Int) : Int :=
  mv - verticalVersine i.settings i.curvature + verticalFrontTerm i.settings i.base i.fAv

/-- R124: the cant term. -/
def cantTerm : Int := if i.xlSaturated then 0 else i.cant - i.xm

/-- R123: the reference rail asked for is the left one. -/
def WantsLeft : Prop := ∀ g, i.geoH = some g → g.reference = .left ∨ (g.reference = .low ∧ 0 ≤ i.cant)

/-- R123 to R125: the rail lifts before the clamp and REF_SWAPPED, at the values above. -/
def rails : Int × Int × Bool := railLifts i i.cant i.base

/-- R126: the targets' rail lifts are two given lifts, each under the clamp with its flags. -/
def Lifts (l r : Int) : Prop :=
  let st := i.settings
  let t := computeTargets i
  t.liftL = max 0 (min st.maxLift l) ∧ t.liftR = max 0 (min st.maxLift r) ∧
    (t.flags.lowSpotL = true ↔ l < 0) ∧ (t.flags.liftLimitL = true ↔ st.maxLift < l) ∧
    (t.flags.lowSpotR = true ↔ r < 0) ∧ (t.flags.liftLimitR = true ↔ st.maxLift < r)

variable {i}

theorem getD_designCant : (i.geoH.map designCant).getD 0 = i.cant := by
  unfold cant
  cases i.geoH <;> rfl

theorem getD_designVersine : (i.geoH.map (designVersine i.settings)).getD 0 = i.lateralDesign := by
  unfold lateralDesign
  cases i.geoH <;> rfl

theorem getD_curvature : (i.geoV.map (·.curvature)).getD 0 = i.curvature := by
  unfold curvature
  cases i.geoV <;> rfl

theorem effectiveBase_baseLift : effectiveBase ((i.geoV.map (·.baseLift)).getD 0) i.trim = i.base := by
  rw [effectiveBase, clampTo_eq_max_min (by decide), base, baseLift]
  cases i.geoV <;> rfl

/-! ### The lining shift (R118, R119) -/

theorem computeTargets_shift :
    (computeTargets i).shift = if i.lnSaturated then 0 else liningLimited i.settings i.stepShift := by
  rw [stepShift, rawShift, ← getD_designVersine]
  rfl

theorem computeTargets_stepLimit :
    (computeTargets i).flags.stepLimit = (!i.lnSaturated && decide (i.stepShift ≠ i.rawShift)) := by
  rw [stepShift, rawShift, ← getD_designVersine]
  rfl

theorem computeTargets_lineLimit :
    (computeTargets i).flags.lineLimit = (!i.lnSaturated && decide ((computeTargets i).shift ≠ i.stepShift)) := by
  rw [stepShift, rawShift, ← getD_designVersine]
  rfl

theorem stepShift_of_none (h : i.previous = none) : i.stepShift = i.rawShift := by
  rw [stepShift, h, stepLimited]

theorem stepShift_of_some {prev : Int} (h : i.previous = some prev) (hst : 0 ≤ i.settings.stepLimit) :
    i.stepShift = max (prev - i.settings.stepLimit) (min (prev + i.settings.stepLimit) i.rawShift) := by
  rw [stepShift, h, stepLimited, clampTo_eq_max_min (by omega)]

theorem liningShift_saturated (h : i.lnSaturated = true) :
    (computeTargets i).shift = 0 ∧ (computeTargets i).flags.lnFault = true ∧
      (computeTargets i).flags.stepLimit = false ∧ (computeTargets i).flags.lineLimit = false := by
  refine ⟨?_, h, ?_, ?_⟩
  · rw [computeTargets_shift, h, if_pos rfl]
  · rw [computeTargets_stepLimit, h, Bool.not_true, Bool.false_and]
  · rw [computeTargets_lineLimit, h, Bool.not_true, Bool.false_and]

theorem shift_of_good (h : i.lnSaturated = false) (hst : 0 ≤ i.settings.liningLimit) :
    (computeTargets i).shift = max (-i.settings.liningLimit) (min i.settings.liningLimit i.stepShift) := by
  rw [computeTargets_shift, h, if_neg Bool.false_ne_true, liningLimited, clampTo_eq_max_min (by omega)]

theorem stepLimit_iff_of_good (h : i.lnSaturated = false) :
    (computeTargets i).flags.stepLimit = true ↔ i.stepShift ≠ i.rawShift := by
  rw [computeTargets_stepLimit, h, Bool.not_false, Bool.true_and, decide_eq_true_iff]

theorem lineLimit_iff_of_good (h : i.lnSaturated = false) :
    (computeTargets i).flags.lineLimit = true ↔ (computeTargets i).shift ≠ i.stepShift := by
  rw [computeTargets_lineLimit, h, Bool.not_false, Bool.true_and, decide_eq_true_iff]

/-! ### The reference rail and the rail lifts (R123 to R126) -/

theorem chosenLeft_iff : chosenLeft i.geoH i.cant = true ↔ i.WantsLeft := by
  unfold chosenLeft WantsLeft
  cases i.geoH with
  | none => simp
  | some g => cases hg : g.reference <;> simp [hg]

theorem not_chosenLeft_iff : chosenLeft i.geoH i.cant = false ↔ ¬ i.WantsLeft := by
  rw [← chosenLeft_iff, Bool.not_eq_true]

theorem rails_both_saturated (hl : i.lvlSaturated = true) (hr : i.lvrSaturated = true) :
    i.rails = (i.base, i.base, false) := by
  simp [rails, railLifts, hl, hr]

/-- The left rail is used: its channel is good, and the other channel is saturated or the left rail is chosen. -/
theorem rails_left_used (hl : i.lvlSaturated = false)
    (hleft : i.lvrSaturated = true ∨ chosenLeft i.geoH i.cant = true) :
    i.rails = (i.profileLift i.mvL, i.profileLift i.mvL + i.cantTerm, !chosenLeft i.geoH i.cant) := by
  rcases hleft with hused | hused <;> simp [rails, railLifts, hl, hused, getD_curvature, profileLift, cantTerm]

/-- The right rail is used: its channel is good, and the other channel is saturated or the right rail is chosen. -/
theorem rails_right_used (hr : i.lvrSaturated = false)
    (hright : i.lvlSaturated = true ∨ chosenLeft i.geoH i.cant = false) :
    i.rails = (i.profileLift i.mvR - i.cantTerm, i.profileLift i.mvR, chosenLeft i.geoH i.cant) := by
  rcases hright with hused | hused <;> simp [rails, railLifts, hr, hused, getD_curvature, profileLift, cantTerm]

theorem computeTargets_refSwapped : (computeTargets i).flags.refSwapped = i.rails.2.2 := by
  rw [rails, ← effectiveBase_baseLift, ← getD_designCant]
  rfl

/-- R126: what the computation makes of the lifts before the clamp. -/
theorem lifts_rails (h : 0 ≤ i.settings.maxLift) : i.Lifts i.rails.1 i.rails.2.1 := by
  simp only [Lifts, ← clampTo_eq_max_min h]
  rw [rails, ← effectiveBase_baseLift, ← getD_designCant]
  exact ⟨rfl, rfl, decide_eq_true_iff, decide_eq_true_iff, decide_eq_true_iff, decide_eq_true_iff⟩

/-- The targets' lifts and REF_SWAPPED, from the lifts before the clamp. -/
theorem lifts_of_rails {l r : Int} {swapped : Bool} (h : 0 ≤ i.settings.maxLift) (hrails : i.rails = (l, r, swapped)) :
    i.Lifts l r ∧ (computeTargets i).flags.refSwapped = swapped := by
  have hlifts := lifts_rails h
  rw [hrails] at hlifts
  exact ⟨hlifts, by rw [computeTargets_refSwapped, hrails]⟩

theorem computeTargets_levelFault : (computeTargets i).flags.levelFault = (i.lvlSaturated && i.lvrSaturated) := rfl

theorem lifts_both_saturated (h : 0 ≤ i.settings.maxLift) (hl : i.lvlSaturated = true) (hr : i.lvrSaturated = true) :
    i.Lifts i.base i.base ∧ (computeTargets i).flags.levelFault = true ∧
      (computeTargets i).flags.refSwapped = false := by
  obtain ⟨hlifts, hswapped⟩ := lifts_of_rails h (rails_both_saturated hl hr)
  exact ⟨hlifts, by simp [computeTargets_levelFault, hl, hr], hswapped⟩

theorem lifts_left_used (h : 0 ≤ i.settings.maxLift) (hl : i.lvlSaturated = false)
    (hleft : i.lvrSaturated = true ∨ i.WantsLeft) :
    i.Lifts (i.profileLift i.mvL) (i.profileLift i.mvL + i.cantTerm) ∧ (computeTargets i).flags.levelFault = false ∧
      ((computeTargets i).flags.refSwapped = true ↔ ¬ i.WantsLeft) := by
  rw [← chosenLeft_iff] at hleft
  obtain ⟨hlifts, hswapped⟩ := lifts_of_rails h (rails_left_used hl hleft)
  exact ⟨hlifts, by rw [computeTargets_levelFault, hl, Bool.false_and],
    by rw [hswapped, Bool.not_eq_true', not_chosenLeft_iff]⟩

theorem lifts_right_used (h : 0 ≤ i.settings.maxLift) (hr : i.lvrSaturated = false)
    (hright : i.lvlSaturated = true ∨ ¬ i.WantsLeft) :
    i.Lifts (i.profileLift i.mvR - i.cantTerm) (i.profileLift i.mvR) ∧ (computeTargets i).flags.levelFault = false ∧
      ((computeTargets i).flags.refSwapped = true ↔ i.WantsLeft) := by
  rw [← not_chosenLeft_iff] at hright
  obtain ⟨hlifts, hswapped⟩ := lifts_of_rails h (rails_right_used hr hright)
  exact ⟨hlifts, by rw [computeTargets_levelFault, hr, Bool.and_false], by rw [hswapped, chosenLeft_iff]⟩

/-- With both channels good the rail that is wanted is used. -/
theorem lifts_both_good (h : 0 ≤ i.settings.maxLift) (hl : i.lvlSaturated = false) (hr : i.lvrSaturated = false) :
    (computeTargets i).flags.refSwapped = false ∧ (computeTargets i).flags.levelFault = false ∧
      (i.WantsLeft → i.Lifts (i.profileLift i.mvL) (i.profileLift i.mvL + i.cantTerm)) ∧
      (¬ i.WantsLeft → i.Lifts (i.profileLift i.mvR - i.cantTerm) (i.profileLift i.mvR)) := by
  by_cases hw : i.WantsLeft
  · obtain ⟨hlifts, hfault, hswapped⟩ := lifts_left_used h hl (.inr hw)
    exact ⟨Bool.eq_false_iff.mpr fun hs => hswapped.mp hs hw, hfault, fun _ => hlifts, fun hn => absurd hw hn⟩
  · obtain ⟨hlifts, hfault, hswapped⟩ := lifts_right_used h hr (.inr hw)
    exact ⟨Bool.eq_false_iff.mpr fun hs => hw (hswapped.mp hs), hfault, fun hn => absurd hn hw, fun _ => hlifts⟩

/-! ### The auxiliary lift (R127) -/

theorem aux_absent (h : ∀ g, i.geoH = some g → g.diverging = none) :
    (computeTargets i).aux = none ∧ (computeTargets i).flags.lowSpotAux = false ∧
      (computeTargets i).flags.liftLimitAux = false := by
  have hx : i.geoH.bind divergingOffset = none := by
    rw [Option.bind_eq_none_iff]
    intro g hg
    rw [divergingOffset, h g hg, Option.map_none]
  simp [computeTargets, hx]

theorem aux_present {g : GeometryH} {x y : Int} (h : 0 ≤ i.settings.maxLift) (hg : i.geoH = some g)
    (hd : g.diverging = some (x, y)) :
    let t := computeTargets i
    let a := auxLiftRaw i.settings t.liftL t.liftR (x + roundDiv ((y - x) * g.u) g.length)
    t.aux = some (max 0 (min i.settings.maxLift a)) ∧ (t.flags.lowSpotAux = true ↔ a < 0) ∧
      (t.flags.liftLimitAux = true ↔ i.settings.maxLift < a) := by
  have hx : i.geoH.bind divergingOffset = some (x + roundDiv ((y - x) * g.u) g.length) := by
    rw [hg, Option.bind_some, divergingOffset, hd, Option.map_some]
  simp only [← clampTo_eq_max_min h]
  simp [computeTargets, hx, clampLift]

end TargetInputs

/-! ### The computation -/

/-- R117: the previous shift that the inputs take from the queue. -/
theorem targetInputs_previous (p : Part) (n : Nat)
    (hsorted : p.queue.records.Pairwise fun x y => x.number < y.number) :
    ((∀ r ∈ p.queue.records, r.number < n → r.targets = none) → (targetInputs p n).previous = none) ∧
    (∀ r t, r ∈ p.queue.records → r.number < n → r.targets = some t →
      (∀ x ∈ p.queue.records, r.number < x.number → x.number < n → x.targets = none) →
        (targetInputs p n).previous = some t.shift) :=
  ⟨previousShift_of_no_targets, fun _ _ hr hn ht hnearest => previousShift_of_nearest hsorted hr hn ht hnearest⟩

open TargetInputs in
/-- Settles O41: the previous shift along the queue's order, the lining shift under each limit in turn, the rail lifts for each
pair of levelling channels, and the auxiliary lift with and without a diverging part. -/
theorem targetsAreLimitedAndFollowTheReferenceRail : Obligations.TargetsAreLimitedAndFollowTheReferenceRail := by
  unfold Obligations.TargetsAreLimitedAndFollowTheReferenceRail
  refine ⟨fun p n => ?_, fun i => ?_, fun i h => ?_⟩
  · exact ⟨rfl, rfl, rfl, rfl, rfl, rfl, rfl, rfl, rfl, rfl, rfl, rfl, rfl, rfl, targetInputs_previous p n⟩
  · exact ⟨liningShift_saturated, fun hgood => ⟨hgood, i.stepShift, stepShift_of_none, fun _ => stepShift_of_some,
      stepLimit_iff_of_good hgood, shift_of_good hgood, lineLimit_iff_of_good hgood⟩⟩
  · exact ⟨lifts_both_saturated h, lifts_both_good h, fun hl hr => lifts_right_used h hr (.inl hl),
      fun hl hr => lifts_left_used h hl (.inl hr),
      ⟨rfl, Option.isNone_iff_eq_none, Option.isNone_iff_eq_none, Option.isNone_iff_eq_none, Option.isNone_iff_eq_none,
        decide_eq_true_iff, decide_eq_true_iff⟩,
      aux_absent, fun _ _ _ => aux_present h⟩

end Sys2Proof.Machine
end

section
/-! PROOF. The lift and lining drive (R132 to R145): what is asked of every axis, the outcomes of a control update, an axis as
MOVE START sets it up, MOVE START in each state of the drive, the sample of an axis's channel, and RELEASE. -/

namespace Sys2Proof.Machine
open Sys2Proof

/-! ### The four axes -/

section
variable {α : Type} (t : PerAxis α) (x : Axis)

@[simp] theorem PerAxis.get_set_same (v : α) : (t.set x v).get x = v := by cases x <;> rfl

@[simp] theorem PerAxis.get_make (f : Axis → α) : (PerAxis.make f).get x = f x := by cases x <;> rfl

theorem PerAxis.all_iff (f : α → Bool) : t.all f = true ↔ ∀ x, f (t.get x) = true := by
  simp only [PerAxis.all, Bool.and_eq_true, and_assoc]
  exact ⟨fun ⟨hline, hliftL, hliftR, haux⟩ x => by cases x <;> assumption, fun h => ⟨h .line, h .liftL, h .liftR, h .aux⟩⟩

theorem PerAxis.any_eq_false_iff (f : α → Bool) : t.any f = false ↔ ∀ x, f (t.get x) = false := by
  simp only [PerAxis.any, Bool.or_eq_false_iff, and_assoc]
  exact ⟨fun ⟨hline, hliftL, hliftR, haux⟩ x => by cases x <;> assumption, fun h => ⟨h .line, h .liftL, h .liftR, h .aux⟩⟩

end

theorem anyStarted_eq_false_iff (d : Drive) : d.anyStarted = false ↔ ∀ x, (d.axes.get x).started = false :=
  PerAxis.any_eq_false_iff d.axes _

theorem anyStarted_iff (d : Drive) : d.anyStarted = true ↔ ∃ x, (d.axes.get x).started = true := by
  rw [← Bool.not_eq_false, anyStarted_eq_false_iff]
  simp

theorem axisDone_iff (a : AxisState) : axisDone a = true ↔ a.started = false ∨ a.phase = .settled ∨ a.phase = .short := by
  simp [axisDone, or_assoc]

/-! ### The control update (R133 to R138) -/

section
variable {x : Axis} {a : AxisState} {reading : Int}

theorem axisError_eq (target : Int) :
    axisError x target reading = if x = .aux then target - reading else reading - target := by cases x <;> rfl

theorem targetReading_eq (start travel : Int) :
    targetReading x start travel = if x = .aux then start + travel else start - travel := by cases x <;> rfl

/-- R132, R133: at its start reading an axis has its whole travel still to make. -/
theorem axisError_targetReading (start travel : Int) : axisError x (targetReading x start travel) start = travel := by
  rw [axisError_eq, targetReading_eq]
  split_ifs <;> omega

/-- R135: the clamp and the floor at 0 as one interval for each axis. -/
theorem movingDemand_eq (gain error : Int) :
    movingDemand x gain error = if x = .line then max (-100) (min 100 (roundDiv (gain * error) 10))
      else max 0 (min 100 (roundDiv (gain * error) 10)) := by
  have hfloor (n : Int) : max 0 (max (-100) (min 100 n)) = max 0 (min 100 n) := by omega
  have hclamp := clampTo_eq_max_min (lo := -100) (hi := 100) (by decide) (roundDiv (gain * error) 10)
  cases x <;> simp [movingDemand, hclamp, hfloor]

theorem updatedAxis_eq {target gain tolerance : Int} (htarget : a.target = some target) (hgain : a.gain = some gain)
    (htolerance : a.tolerance = some tolerance) :
    updatedAxis x a reading =
      if ((axisError x target reading).natAbs : Int) ≤ tolerance then { a with phase := .settled, demand := 0 }
      else if a.phase = .settled ∧ a.timer = .expired then { a with phase := .short, demand := 0 }
      else { a with phase := .moving, demand := movingDemand x gain (axisError x target reading) } := by
  simp only [updatedAxis, htarget, hgain, htolerance, Option.getD_some]

theorem updatedAxis_started : (updatedAxis x a reading).started = a.started := by
  unfold updatedAxis
  simp only
  split_ifs <;> rfl

theorem takesUpdates_iff : takesUpdates a = true ↔ a.started = true ∧ (a.phase = .moving ∨ a.phase = .settled) := by
  simp [takesUpdates]

end

/-! ### An axis as MOVE START sets it up (R132) -/

/-- R132: an axis set up for its travel, before the update on its start reading. -/
def setUpAxis (p : Part) (x : Axis) (travel : Int) : AxisState where
  phase := .moving
  started := true
  startReading := some (driveValue p (axisChannel x))
  target := some (targetReading x (driveValue p (axisChannel x)) travel)
  gain := some (gainOf p.store.working x)
  tolerance := some p.store.working.settleTolerance
  timer := .running p.store.working.moveTimeout
  demand := 0

section
variable {p : Part} {t : Targets} {x : Axis} {travel : Int}

theorem startedAxis_of_no_travel (h : axisTravel t x = none) : startedAxis p t x = .rest := by
  rw [startedAxis, h]

/-- R132: the axis stands as the update on its start reading leaves it, whose error is the whole travel. -/
theorem startedAxis_of_travel (h : axisTravel t x = some travel) :
    startedAxis p t x =
      if (travel.natAbs : Int) ≤ p.store.working.settleTolerance then
        { setUpAxis p x travel with phase := .settled, demand := 0 }
      else { setUpAxis p x travel with demand := movingDemand x (gainOf p.store.working x) travel } := by
  have hupdate : startedAxis p t x = updatedAxis x (setUpAxis p x travel) (driveValue p (axisChannel x)) := by
    rw [startedAxis, h]
    rfl
  rw [hupdate, updatedAxis_eq rfl rfl rfl, axisError_targetReading]
  simp [setUpAxis]

/-- An axis that MOVE START sets up is done at once exactly when its travel lies within the tolerance. -/
theorem axisDone_startedAxis (h : axisTravel t x = some travel) :
    axisDone (startedAxis p t x) = true ↔ (travel.natAbs : Int) ≤ p.store.working.settleTolerance := by
  rw [startedAxis_of_travel h]
  split_ifs with hsettled
  · exact iff_of_true rfl hsettled
  · exact iff_of_false (by decide : ¬ false = true) hsettled

theorem startedAxis_fields (h : axisTravel t x = some travel) :
    let st := p.store.working
    let start := driveValue p (axisChannel x)
    let a := startedAxis p t x
    a.started = true ∧ a.startReading = some start ∧ a.gain = some (gainOf st x) ∧
    a.tolerance = some st.settleTolerance ∧ a.timer = .running st.moveTimeout ∧
    a.target = some (if x = .aux then start + travel else start - travel) ∧
    ((travel.natAbs : Int) ≤ st.settleTolerance → a.phase = .settled ∧ a.demand = 0) ∧
    (st.settleTolerance < (travel.natAbs : Int) → a.phase = .moving ∧
      a.demand = if x = .line then max (-100) (min 100 (roundDiv (gainOf st x * travel) 10))
                 else max 0 (min 100 (roundDiv (gainOf st x * travel) 10))) := by
  simp only
  rw [startedAxis_of_travel h, ← targetReading_eq, ← movingDemand_eq]
  split_ifs with hsettled
  · exact ⟨rfl, rfl, rfl, rfl, rfl, rfl, fun _ => ⟨rfl, rfl⟩, fun hlt => absurd hsettled hlt.not_ge⟩
  · exact ⟨rfl, rfl, rfl, rfl, rfl, rfl, fun hle => absurd hle hsettled, fun _ => ⟨rfl, rfl⟩⟩

end

/-! ### MOVE START in each state of the drive (R132, R139, R145) -/

section
variable {p : Part} {t : Targets}

theorem moveStart_asserted (hline : p.lines.estop = true) : moveStart p t = (p, false) := by
  simp [moveStart, hline]

theorem moveStart_started (hline : p.lines.estop = false) (hrelease : p.drive.releaseTimer = none)
    (hstarted : p.drive.anyStarted = true) : moveStart p t = (p, false) := by
  simp [moveStart, hline, hrelease, hstarted]

/-- The part after MOVE START has set up its axes. -/
def movedPart (p : Part) (t : Targets) : Part := p.withDrive { p.drive with axes := PerAxis.make (startedAxis p t) }

theorem moveStart_rested (hline : p.lines.estop = false) (hrelease : p.drive.releaseTimer = none)
    (hstarted : p.drive.anyStarted = false) :
    moveStart p t = (movedPart p t, (movedPart p t).drive.axes.all axisDone) := by
  simp [moveStart, movedPart, hline, hrelease, hstarted]

/-- R145: a MOVE START in a release finds the drive as the end of the release would leave it. -/
theorem moveStart_releasing (hline : p.lines.estop = false) (hrelease : p.drive.releaseTimer ≠ none) :
    moveStart p t = moveStart (p.withDrive (restAxes p.drive)) t := by
  have hrest : (restAxes p.drive).anyStarted = false := rfl
  have hrested := moveStart_rested (p := p.withDrive (restAxes p.drive)) (t := t) hline rfl hrest
  rw [hrested]
  simp [moveStart, movedPart, hline, Option.isSome_iff_ne_none.mpr hrelease, hrest]

/-- R139: POSITIONED at once. -/
theorem movedPart_done_iff :
    (movedPart p t).drive.axes.all axisDone = true ↔
      (t.shift.natAbs : Int) ≤ p.store.working.settleTolerance ∧
      (t.liftL.natAbs : Int) ≤ p.store.working.settleTolerance ∧
      (t.liftR.natAbs : Int) ≤ p.store.working.settleTolerance ∧
      ∀ a, t.aux = some a → (a.natAbs : Int) ≤ p.store.working.settleTolerance := by
  have haux : axisDone (startedAxis p t .aux) = true ↔
      ∀ a, t.aux = some a → (a.natAbs : Int) ≤ p.store.working.settleTolerance := by
    cases h : t.aux with
    | none => simp [startedAxis_of_no_travel (x := .aux) h, axisDone, AxisState.rest]
    | some a => simp [axisDone_startedAxis (x := .aux) h]
  rw [← haux, ← axisDone_startedAxis (p := p) (t := t) (x := .line) rfl,
    ← axisDone_startedAxis (p := p) (t := t) (x := .liftL) rfl, ← axisDone_startedAxis (p := p) (t := t) (x := .liftR) rfl]
  simp [movedPart, PerAxis.all, PerAxis.make, and_assoc]

end

/-! ### The sample of an axis's channel (R134, R139) -/

/-- R139: with the axis itself started, a POSITIONED turns on its change of state and on every axis being done. -/
theorem positionedBy_iff {before after : AxisState} {d : Drive} {x : Axis} (hget : d.axes.get x = after)
    (hstarted : after.started = true) :
    positionedBy before after d = true ↔ after.phase ≠ before.phase ∧ ∀ y, axisDone (d.axes.get y) = true := by
  have hself : (∀ y, axisDone (d.axes.get y) = true) → after.phase = .settled ∨ after.phase = .short := by
    intro hdone
    have hx := (axisDone_iff _).mp (hdone x)
    rw [hget, hstarted] at hx
    simpa using hx
  simp only [positionedBy, Bool.and_eq_true, Bool.or_eq_true, decide_eq_true_eq, PerAxis.all_iff]
  exact ⟨fun ⟨⟨_, hchange⟩, hdone⟩ => ⟨hchange, hdone⟩, fun ⟨hchange, hdone⟩ => ⟨⟨⟨hstarted, hself hdone⟩, hchange⟩, hdone⟩⟩

theorem updateAxis_of_takesUpdates {p : Part} {x : Axis} {b : AxisState} (htakes : takesUpdates (p.drive.axes.get x) = true)
    (hb : updatedAxis x (p.drive.axes.get x) (driveValue p (axisChannel x)) = b) :
    updateAxis p x = (p.setAxis x b, positionedBy (p.drive.axes.get x) b (p.setAxis x b).drive) := by
  rw [updateAxis, if_pos htakes, hb]

theorem driveSample_axisChannel (p : Part) (x : Axis) :
    driveSample (axisChannel x) p = if (updateAxis p x).2 then positioned (updateAxis p x).1 else (updateAxis p x).1 := by
  have haxis : axisOfChannel (axisChannel x) = some x := by cases x <;> rfl
  simp only [driveSample, haxis]
  obtain ⟨q, _ | _⟩ := updateAxis p x <;> rfl

/-- R147: the controller takes no sample of an axis's channel. -/
theorem cycleSample_axisChannel (p : Part) (x : Axis) : cycleSample (axisChannel x) p = p := by cases x <;> rfl

theorem sampleEvent_ready {p : Part} (ch : Channel) (level : Int) (h : p.phase = .ready) :
    sampleEvent ch level p = cycleSample ch (driveSample ch (recordSample p ch level)) := by
  simp [sampleEvent, settlesWith, h]

section
variable {s : State} {x : Axis} {level : Int}

/-- R134, R139: a sample of its channel gives an axis that takes updates its update b, and POSITIONED is handed on when b has
changed the axis's state and leaves every axis done. -/
theorem exec_axisSample {b : AxisState} (hpowered : s.part.powered = true) (hready : s.part.phase = .ready)
    (htakes : takesUpdates (s.part.drive.axes.get x) = true) :
    let p := recordSample s.part (axisChannel x) level
    let a := p.drive.axes.get x
    let q := p.setAxis x b
    let done := fun y => (q.drive.axes.get y).started = false ∨ (q.drive.axes.get y).phase = .settled ∨
      (q.drive.axes.get y).phase = .short
    updatedAxis x a (driveValue p (axisChannel x)) = b →
    (b.phase ≠ a.phase → (∀ y, done y) →
      exec (.channelSample (axisChannel x) level) s = .next (s.withPart (positioned q))) ∧
    (b.phase = a.phase ∨ (∃ y, ¬ done y) → exec (.channelSample (axisChannel x) level) s = .next (s.withPart q)) := by
  intro p a q done hb
  have hupdate : updateAxis p x = (q, positionedBy a b q.drive) := updateAxis_of_takesUpdates htakes hb
  have hexec : exec (.channelSample (axisChannel x) level) s =
      .next (s.withPart (if positionedBy a b q.drive then positioned q else q)) := by
    have hevent : exec (.channelSample (axisChannel x) level) s =
        .next (s.withPart (sampleEvent (axisChannel x) level s.part)) := eventOf_powered hpowered
    rw [hevent, sampleEvent_ready _ _ hready, cycleSample_axisChannel, driveSample_axisChannel, hupdate]
  have hstarted : b.started = true := by
    rw [← hb, updatedAxis_started]
    exact (takesUpdates_iff.mp htakes).1
  have hpositioned : positionedBy a b q.drive = true ↔ b.phase ≠ a.phase ∧ ∀ y, done y := by
    rw [positionedBy_iff (PerAxis.get_set_same _ x b) hstarted]
    simp only [axisDone_iff, done]
  rw [hexec]
  refine ⟨fun hchange hdone => ?_, fun hnot => ?_⟩
  · rw [if_pos (hpositioned.mpr ⟨hchange, hdone⟩)]
  · have hno : ¬ (b.phase ≠ a.phase ∧ ∀ y, done y) :=
      fun ⟨hchange, hdone⟩ => hnot.elim hchange fun ⟨y, hy⟩ => hy (hdone y)
    rw [if_neg (hpositioned.not.mpr hno)]

end

/-! ### RELEASE (R141, R145) -/

section
variable {p : Part}

theorem releaseDrive_started (hrelease : p.drive.releaseTimer = none) (hstarted : p.drive.anyStarted = true) :
    releaseDrive p = p.withDrive { axes := p.drive.axes.map heldAxis, clampEngaged := false,
                                   releaseTimer := some p.store.working.releaseTime } := by
  simp [releaseDrive, hrelease, hstarted]

theorem releaseDrive_running (hrelease : p.drive.releaseTimer ≠ none) : releaseDrive p = p := by
  simp [releaseDrive, hrelease]

theorem releaseDrive_rested (hstarted : p.drive.anyStarted = false) : releaseDrive p = p := by
  simp [releaseDrive, hstarted]

end

/-- Settles O42: MOVE START by the state of the drive it finds, the sample by the change of the axis's state and by what the
other axes are, and RELEASE by whether it finds an axis started and no release running. -/
theorem moveStartAndSamplesDriveTheAxes : Obligations.MoveStartAndSamplesDriveTheAxes := by
  unfold Obligations.MoveStartAndSamplesDriveTheAxes
  refine ⟨fun p t hline hrelease hrest => ?_, fun s x level hpowered hready => ?_, fun p t => ?_, fun p => ?_⟩
  · rw [moveStart_rested hline hrelease ((anyStarted_eq_false_iff _).mpr hrest)]
    exact ⟨startedAxis_fields (x := .line) rfl, startedAxis_fields (x := .liftL) rfl, startedAxis_fields (x := .liftR) rfl,
      fun _ haux => startedAxis_fields (x := .aux) haux, startedAxis_of_no_travel (x := .aux), rfl, movedPart_done_iff⟩
  · intro ch p a target gain tolerance hstarted hphase htarget hgain htolerance error b q done
    have htakes : takesUpdates a = true := takesUpdates_iff.mpr ⟨hstarted, hphase⟩
    have hb : updatedAxis x a (driveValue p ch) = b := by
      rw [updatedAxis_eq htarget hgain htolerance, axisError_eq, movingDemand_eq]
    exact exec_axisSample hpowered hready htakes hb
  · refine ⟨moveStart_asserted, fun hline hrelease hstarted => ?_, moveStart_releasing⟩
    exact moveStart_started hline hrelease ((anyStarted_iff _).mpr hstarted)
  · refine ⟨fun hrelease hstarted => releaseDrive_started hrelease ((anyStarted_iff _).mpr hstarted), ?_⟩
    rintro (hrelease | hrest)
    · exact releaseDrive_running hrelease
    · exact releaseDrive_rested ((anyStarted_eq_false_iff _).mpr hrest)

end Sys2Proof.Machine
end

section
/-! PROOF. What one step can do to the part: one relation for the block's decision of a request that is taken (`Decided`), one
for a whole command (`Effect`), and the inversion lemma of the step over them. The invariants of every moment are proved by
cases on these relations. -/

namespace Sys2Proof.Machine
open Sys2Proof Sys2Proof.Safety

/-- What the owning block makes of the part that a request finds, with what its rule has checked before. -/
inductive Decided (r : Request) (p : Part) : Part → Prop where
  | unchanged : Decided r p p
  | overrunCleared : Decided r p (p.withPort { p.port with overrun := false })
  | authority (node : Int) : Decided r p (setAuthority p node)
  | resetTaken : Decided r p (p.withPort { p.port with resetPending := true })
  | originSet (origin : Int) (d : Direction) : inChainageRange origin = true → originBusy p = false →
      Decided r p (setOrigin p origin d)
  | settingWritten (id : SettingId) (v : Int) : (p.store.working.set id v).consistent = true → p.store.save = none →
      settingBusy p id = false → Decided r p (writeSetting p id v)
  | saveBegun : p.store.save = none →
      Decided r p { p with store := { p.store with save := some p.store.working.snapshot, status := .saving } }
  | loadFailed : p.store.save = none → Decided r p { p with store := { p.store with status := .fault } }
  | loaded : p.store.save = none → p.cycle.phase = .idle → copyValid p.store.copy = true →
      loadBusy p (Settings.ofWords p.store.copy.words) = false →
      Decided r p (adoptSettings p (Settings.ofWords p.store.copy.words))
  | zeroCaptured (ch : Channel) : p.store.save = none →
      Decided r p (p.withWorking (p.store.working.set (.zero ch) (meanCount (p.history.get ch))))
  | planWritten (kind slot : Nat) (desc : Descriptor) : descriptorOf r.fields kind = some desc → slot ≤ 511 →
      (slotAt p.plan slot).state ≠ .inUse →
      Decided r p (p.withSlot slot { state := .loaded, code := none, contents := some desc })
  | planLinked (slot : Nat) (link : Option Nat) (desc : Descriptor) : slot ≤ 511 →
      (slotAt p.plan slot).contents.bind (relink link) = some desc →
      Decided r p (p.withSlot slot { slotAt p.plan slot with contents := some desc })
  | planCleared (first last : Nat) : rangeInUse p.plan first last = false →
      Decided r p { p with plan := clearSlots p.plan first last }
  | planRun (i : ContextId) (first : Nat) (start : Option Int) : p.travel.originState ≠ .none →
      (p.ctx i).state = .stopped → Decided r p (runContext p i first start)
  | planWoken (i : ContextId) : (p.ctx i).state = .starved → Decided r p (wakeContext p i)
  | planStopped (i : ContextId) : (p.ctx i).state ≠ .stopped → Decided r p (stopContext p i)
  | gridSet (base : Int) (spacing : Nat) : inChainageRange base = true → 1000 ≤ spacing → spacing ≤ 20000 →
      Decided r p (p.withCorr { p.corr with entries := [], base := base, spacing := spacing })
  | windowOpened (first last : Nat) (mode : WindowMode) : first ≤ last → last ≤ 255 →
      Decided r p (p.withCorr { p.corr with
        window := some { owner := r.node, first := first, last := last, cursor := first, mode := mode } })
  | pairsWritten (w : CorrWindow) (pairs : List (Int × Int)) : p.corr.window = some w →
      Decided r p (p.withCorr { p.corr with
        entries := (pairs.foldl writePair (p.corr.entries, w)).1,
        window := some (pairs.foldl writePair (p.corr.entries, w)).2 })
  | cursorRead (w : CorrWindow) : p.corr.window = some w →
      Decided r p (p.withCorr { p.corr with window := some (match w.mode with | .edit => w | .write => advanceCursor w) })
  | trimSet (v : Int) : Decided r p { p with trim := clampTo (-40) 40 v }
  | patternsSet (t : PerSlot Pattern) : Decided r p (p.withPatterns t)
  | skipMarked (n : Nat) (c : Option SkipCause) : Decided r p (markSkip p n c)
  | skipCleared (n : Nat) : Decided r p (startEvent (markSkip p n none))
  | haltCleared (h : Nat) : p.queue.latch = some h → Decided r p (startEvent (testStopPoint (rearmLatch p h)))
  | modeSet (m : Mode) : Decided r p (setMode p m)
  | cycleStarted (x : SleeperRecord) : startableRecord p = some x → Decided r p (startCycle p x)
  | cycleStopped : Decided r p (stopCycle p)
  | unitsRaised : p.cycle.phase = .lockout → p.lines.estop = false → Decided r p (raiseUnits p)
  | clearedInIdle : p.cycle.phase = .idle → Decided r p (startEvent p)
  | lockoutCleared : p.cycle.phase = .lockout → p.lines.estop = false → allClear p = true →
      Decided r p (startEvent (clearLockout p))

/-- What one command can do to the part. -/
inductive Effect (p : Part) : Part → Prop where
  | none : Effect p p
  | powerOn : p.powered = false → Effect p (.afterReset (loadedStore p.store.copy) p.lines)
  | powerLoss (left : NvCopy) : p.powered = true → Effect p (unpowered p left)
  | linesSeen (lines : Lines) : p.powered = false → Effect p { p with lines := lines }
  | reset : p.powered = true → Effect p (resetPart p)
  | received (q : Request) : Effect p (offerRequest p q)
  | sent (m : Message) (rest : List Message) : p.powered = true → p.port.tx = m :: rest → Effect p (sendHead p rest)
  | busOff : Effect p (p.withPort { p.port with link := .busOff })
  | linkRestarted : p.powered = true → Effect p (restartLink p)
  | admitted (source : ReportSource) : Effect p (admitInTurn source p)
  | sleeperDone (x : SleeperRecord) : p.powered = true → canAdmit p = true → offeredRecord p.queue = some x →
      Effect p (renewAndStart (acceptRecord p x))
  | sample (ch : Channel) (level : Int) : p.powered = true → Effect p (sampleEvent ch level p)
  | odometerSeen (line1 line2 : Bool) : Effect p (observeOdometer line1 line2 p)
  | pulse (line1 line2 : Bool) (dir : Move) (lines : ScanLines) : p.powered = true →
      Effect p (takePulse lines dir (observeOdometer line1 line2 p))
  | standstillIdle : p.travel.motion = .standstill → Effect p (p.withTravel { p.travel with standstillTimer := .none })
  | standstillEntered : p.powered = true → p.travel.motion = .moving →
      Effect p (enterStandstill (p.withTravel { p.travel with standstillTimer := .none }))
  | foldSeen (arm : Arm) (folded : Bool) : Effect p (setFoldLine p arm folded)
  | foldConfirmed (arm : Arm) (folded : Bool) : p.powered = true → p.cycle.phase = .positioning →
      p.cycle.folding = .inProgress →
      Effect p (confirmUnits (setFoldLine p arm folded))
  | estopAgain : p.powered = true → p.lines.estop = true → Effect p (setEstopLine p true)
  | estopAsserted : p.powered = true → p.lines.estop = false → Effect p (cycleEstop (setEstopLine p true))
  | estopReleased : Effect p (setEstopLine p false)
  | moveExpired (x : Axis) : p.powered = true → (expireMove p x).2 = false → Effect p (expireMove p x).1
  | moveExpiredPositioned (x : Axis) : p.powered = true → (expireMove p x).2 = true →
      Effect p (positioned (expireMove p x).1)
  | releaseEnded (ms : Int) : p.powered = true → p.drive.releaseTimer = some ms →
      Effect p (cycleReleaseEnd (endRelease p).1 (endRelease p).2)
  | foldTimedOut : p.powered = true → p.cycle.phase = .positioning → Effect p (endFolding (foldFaults p))
  | penetrationTimedOut : p.powered = true → p.cycle.phase = .penetrating → Effect p (enterSqueezing (penetrationShort p))
  | squeezeTimedOut : p.powered = true → p.cycle.phase = .squeezing →
      Effect p (endSqueezing enterPenetrating (endSqueezeOf (fun _ => true) true p))
  | raiseTimedOut : p.powered = true → p.cycle.phase = .raising → allClear p = true → Effect p (endRaise enterPenetrating p)
  | raiseStuck : p.powered = true → p.cycle.phase = .raising → allClear p = false → Effect p (stuckFault p)
  | lockoutRaiseTimedOut : p.powered = true → p.cycle.phase = .lockout → allClear p = true → Effect p (afterLockoutDepth p)
  | lockoutRaiseStuck : p.powered = true → p.cycle.phase = .lockout → allClear p = false → Effect p (lockoutRaiseStuck p)
  | saveEnded (snapshot readBack : NvCopy) : p.powered = true → p.store.save = some snapshot →
      Effect p (handEvent { p with store := savedStore p.store snapshot readBack }
        (.storeDone (decide (readBack = snapshot))))
  | request (r : Request) (rest : List Request) (a : Answer) : p.powered = true → p.port.rx = r :: rest →
      p.port.tx.length < 8 → (a.part = foundPart p r rest ∨ p.phase = .ready ∧ Decided r (foundPart p r rest) a.part) →
      Effect p (repliedPart p.store.working.partNode r a)

/-! ### Requests -/

/-- A request's block decides in the ways that `Decided` lists. -/
theorem takeOldest_effect {accepts : Nat → Bool} {flen : Option Nat}
    {block : Option CorrWindow → Request → Part → Answer} {s t : State}
    (hblock : ∀ w r p, Decided r p (block w r p).part) (h : takeOldest accepts flen block s = .next t) :
    Effect s.part t.part := by
  rcases takeOldest_next h with rfl | ⟨r, rest, a, hp, hrx, htx, -, -, ha, rfl⟩
  · exact .none
  · refine .request r rest a hp hrx htx ?_
    rcases ha with ⟨st, rfl⟩ | ⟨hready, -, -, rfl⟩
    · exact .inl rfl
    · exact .inr ⟨hready, hblock _ _ _⟩

theorem takeKind_effect {kind flen : Nat} {block : Request → Part → Answer} {s t : State}
    (hblock : ∀ r p, Decided r p (block r p).part) (h : takeKind kind flen block s = .next t) :
    Effect s.part t.part := takeOldest_effect (fun _ => hblock) h

theorem takeOpenKind_effect {kind : Nat} {block : Request → Part → Answer} {s t : State}
    (hblock : ∀ r p, Decided r p (block r p).part) (h : takeOpenKind kind block s = .next t) :
    Effect s.part t.part := takeOldest_effect (fun _ => hblock) h

theorem Decided.ite {r : Request} {p : Part} {c : Prop} [Decidable c] {a b : Answer} (ha : c → Decided r p a.part)
    (hb : ¬ c → Decided r p b.part) : Decided r p (if c then a else b).part := by
  split
  · next h => exact ha h
  · next h => exact hb h

section
variable {s t : State}

theorem execAuthGive_effect (h : execAuthGive s = .next t) : Effect s.part t.part :=
  takeKind_effect (fun _ _ => .ite (fun _ => .unchanged) fun _ => .authority _) h

theorem execPartReset_effect (h : execPartReset s = .next t) : Effect s.part t.part :=
  takeKind_effect (fun _ _ => .ite (fun _ => .unchanged) fun _ => .resetTaken) h

theorem execOriginSet_effect (h : execOriginSet s = .next t) : Effect s.part t.part := by
  refine takeKind_effect (fun r p => ?_) h
  simp only
  split
  · exact .unchanged
  · exact .ite (fun _ => .unchanged) fun hrange => .ite (fun _ => .unchanged) fun hbusy =>
      .originSet _ _ (by simpa using hrange) (by simpa using hbusy)

theorem execSettingWrite_effect (h : execSettingWrite s = .next t) : Effect s.part t.part := by
  refine takeKind_effect (fun r p => ?_) h
  simp only
  split
  · exact .unchanged
  · exact .ite (fun _ => .unchanged) fun hcons => .ite (fun _ => .unchanged) fun hsave =>
      .ite (fun _ => .unchanged) fun hbusy =>
        .settingWritten _ _ (by simpa using hcons) (by simpa using hsave) (by simpa using hbusy)

theorem execSettingRead_effect (h : execSettingRead s = .next t) : Effect s.part t.part := by
  refine takeKind_effect (fun r p => ?_) h
  simp only
  split <;> exact .unchanged

theorem execStoreSave_effect (h : execStoreSave s = .next t) : Effect s.part t.part :=
  takeKind_effect (fun _ _ => .ite (fun _ => .unchanged) fun hc => .saveBegun (by simp_all)) h

theorem execStoreLoad_effect (h : execStoreLoad s = .next t) : Effect s.part t.part :=
  takeKind_effect (fun _ _ => .ite (fun _ => .unchanged) fun hc =>
    .ite (fun _ => .loadFailed (by simp_all)) fun hv => .ite (fun _ => .unchanged) fun hb =>
      .loaded (by simp_all) (by simp_all) (by simpa using hv) (by simpa using hb)) h

theorem execZeroCapture_effect (h : execZeroCapture s = .next t) : Effect s.part t.part := by
  refine takeKind_effect (fun r p => ?_) h
  simp only
  split
  · exact .unchanged
  · exact .ite (fun _ => .unchanged) fun hs => .ite (fun _ => .unchanged) fun _ => .zeroCaptured _ (by simpa using hs)

theorem execPlanWrite_effect (h : execPlanWrite s = .next t) : Effect s.part t.part := by
  refine takeOpenKind_effect (fun r p => ?_) h
  refine .ite (fun _ => .unchanged) fun _ => .ite (fun _ => .unchanged) fun hslot => .ite (fun _ => .unchanged) fun _ => ?_
  split
  · exact .unchanged
  · refine .ite (fun _ => .unchanged) fun _ => ?_
    split
    · exact .unchanged
    · next desc hdesc =>
      exact .ite (fun _ => .unchanged) fun hfree =>
        .planWritten _ _ desc hdesc (by simpa [slotNumber] using hslot) hfree

theorem execPlanLink_effect (h : execPlanLink s = .next t) : Effect s.part t.part := by
  refine takeKind_effect (fun r p => ?_) h
  simp only
  split
  · exact .unchanged
  · refine .ite (fun _ => .unchanged) fun hslot => ?_
    split
    · exact .unchanged
    · next desc hdesc => exact .planLinked _ _ desc (by simpa [slotNumber] using hslot) hdesc

theorem execPlanClear_effect (h : execPlanClear s = .next t) : Effect s.part t.part :=
  takeKind_effect (fun _ _ => .ite (fun _ => .unchanged) fun _ => .ite (fun _ => .unchanged) fun hfree =>
    .planCleared _ _ (by simpa using hfree)) h

theorem execPlanRead_effect (h : execPlanRead s = .next t) : Effect s.part t.part :=
  takeKind_effect (fun _ _ => .ite (fun _ => .unchanged) fun _ => .unchanged) h

theorem execPlanRun_effect (h : execPlanRun s = .next t) : Effect s.part t.part := by
  refine takeKind_effect (fun r p => ?_) h
  simp only
  split
  · exact .ite (fun _ => .unchanged) fun _ => .ite (fun _ => .unchanged) fun hset => .ite (fun _ => .unchanged) fun hstop =>
      .planRun _ _ _ hset (not_not.mp hstop)
  · exact .unchanged

theorem execPlanWake_effect (h : execPlanWake s = .next t) : Effect s.part t.part := by
  refine takeKind_effect (fun r p => ?_) h
  split
  · exact .unchanged
  · split
    · next hst => exact .planWoken _ hst
    · exact .unchanged
    · exact .unchanged

theorem execPlanStop_effect (h : execPlanStop s = .next t) : Effect s.part t.part := by
  refine takeKind_effect (fun r p => ?_) h
  split
  · exact .unchanged
  · show Decided r p (if _ then _ else _)
    split
    · exact .unchanged
    · next hst => exact .planStopped _ hst

theorem execCorrGrid_effect (h : execCorrGrid s = .next t) : Effect s.part t.part :=
  takeOldest_effect (fun _ _ _ => .ite (fun _ => .unchanged) fun hf => .ite (fun _ => .unchanged) fun _ =>
    .gridSet _ _ (by simp_all) (by omega) (by omega)) h

theorem execCorrWindow_effect (h : execCorrWindow s = .next t) : Effect s.part t.part := by
  refine takeKind_effect (fun r p => ?_) h
  simp only
  split
  · exact .unchanged
  · exact .ite (fun _ => .unchanged) fun hf => .windowOpened _ _ _ (by omega) (by omega)

theorem execCorrData_effect (h : execCorrData s = .next t) : Effect s.part t.part := by
  refine takeOpenKind_effect (fun r p => ?_) h
  split
  · exact .unchanged
  · next w hw => exact .ite (fun _ => .unchanged) fun _ => .ite (fun _ => .unchanged) fun _ => .pairsWritten w _ hw

theorem readAtCursor_decided (r : Request) (p : Part) : Decided r p (readAtCursor r p).part := by
  unfold readAtCursor
  split
  · exact .unchanged
  · next w hw => exact .ite (fun _ => .unchanged) fun _ => .cursorRead w hw

theorem execCorrRead_effect (h : execCorrRead s = .next t) : Effect s.part t.part := by
  refine takeOpenKind_effect (fun r p => .ite (fun _ => .unchanged) fun _ => ?_) h
  split
  · exact .ite (fun _ => .unchanged) fun _ => readAtCursor_decided r p
  · exact .ite (fun _ => .unchanged) fun _ => .ite (fun _ => .unchanged) fun _ => .unchanged
  · exact .unchanged

theorem execPatternSet_effect (h : execPatternSet s = .next t) : Effect s.part t.part := by
  refine takeOpenKind_effect (fun r p => .ite (fun _ => .unchanged) fun _ => ?_) h
  split
  · exact .ite (fun _ => .unchanged) fun _ => .ite (fun _ => .unchanged) fun _ => .patternsSet _
  · exact .unchanged

theorem execPatternEnable_effect (h : execPatternEnable s = .next t) : Effect s.part t.part :=
  takeKind_effect (fun _ _ => .ite (fun _ => .unchanged) fun _ => .patternsSet _) h

theorem execPatternRead_effect (h : execPatternRead s = .next t) : Effect s.part t.part := by
  refine takeKind_effect (fun r p => ?_) h
  split <;> exact .unchanged

theorem execQueueRead_effect (h : execQueueRead s = .next t) : Effect s.part t.part := by
  refine takeKind_effect (fun r p => ?_) h
  simp only
  split
  · split <;> exact .unchanged
  · exact .unchanged
  · exact .unchanged

theorem execSkipMark_effect (h : execSkipMark s = .next t) : Effect s.part t.part := by
  refine takeKind_effect (fun r p => .ite (fun _ => .unchanged) fun _ => ?_) h
  split
  · exact .unchanged
  · exact .ite (fun _ => .unchanged) fun _ => .ite (fun _ => .skipMarked _ _) fun _ =>
      .ite (fun _ => .skipCleared _) fun _ => .skipMarked _ _

theorem execHaltClear_effect (h : execHaltClear s = .next t) : Effect s.part t.part := by
  refine takeKind_effect (fun r p => ?_) h
  split
  · exact .unchanged
  · next l hl => exact .haltCleared l hl

theorem execModeSet_effect (h : execModeSet s = .next t) : Effect s.part t.part := by
  refine takeKind_effect (fun r p => ?_) h
  split
  · exact .unchanged
  · exact .modeSet _

theorem execCycleStart_effect (h : execCycleStart s = .next t) : Effect s.part t.part := by
  refine takeKind_effect (fun r p => .ite (fun _ => .unchanged) fun _ => .ite (fun _ => .unchanged) fun _ => ?_) h
  split
  · exact .unchanged
  · next x hx => exact .cycleStarted x hx

theorem execUnitsRaise_effect (h : execUnitsRaise s = .next t) : Effect s.part t.part :=
  takeKind_effect (fun _ _ => .ite (fun _ => .unchanged) fun hc => .unitsRaised (by simp_all) (by simp_all)) h

theorem execFaultClear_effect (h : execFaultClear s = .next t) : Effect s.part t.part := by
  refine takeKind_effect (fun r p => ?_) h
  split
  · next hph => exact .clearedInIdle hph
  · next hph => exact .ite (fun _ => .unchanged) fun hc => .lockoutCleared hph (by simp_all) (by simp_all)
  · exact .unchanged

theorem execUnknownKindRequest_effect (h : execUnknownKindRequest s = .next t) : Effect s.part t.part :=
  takeOldest_effect (fun _ _ _ => .unchanged) h

/-! ### Events -/

theorem eventOf_effect {f : Part → Part} (hf : s.part.powered = true → Effect s.part (f s.part))
    (h : eventOf s f = .next t) : Effect s.part t.part := by
  rw [eventOf_next h, State.withPart_part]
  split
  · next hp => exact hf hp
  · exact .none

theorem Effect.ite {p q r : Part} {c : Prop} [Decidable c] (hq : c → Effect p q) (hr : ¬ c → Effect p r) :
    Effect p (if c then q else r) := by
  split
  · next h => exact hq h
  · next h => exact hr h

theorem execPowerOn_effect (h : execPowerOn s = .next t) : Effect s.part t.part := by
  cases h
  exact .ite (fun _ => .none) fun hp => .powerOn (by simpa using hp)

theorem execFrameReceived_effect {f : BusFrame} (h : execFrameReceived f s = .next t) : Effect s.part t.part := by
  refine eventOf_effect (fun _ => ?_) h
  split
  · exact .received _
  · exact .none

theorem execFrameTransmitted_effect (h : execFrameTransmitted s = .next t) : Effect s.part t.part := by
  refine eventOf_effect (fun hp => ?_) h
  split
  · next htx => exact .sent _ _ hp htx
  · exact .none

theorem execLinkRestart_effect (h : execLinkRestart s = .next t) : Effect s.part t.part := by
  refine eventOf_effect (fun hp => ?_) h
  split
  · exact .none
  · exact .linkRestarted hp

theorem execPartResetTakesEffect_effect (h : execPartResetTakesEffect s = .next t) : Effect s.part t.part := by
  refine eventOf_effect (fun hp => .ite (fun _ => ?_) fun _ => .none) h
  split
  · exact .reset hp
  · exact .reset hp
  · exact .none

theorem execEvent_effect (h : execEvent s = .next t) : Effect s.part t.part := by
  refine eventOf_effect (fun _ => ?_) h
  split
  · exact .admitted _
  · exact .none

theorem execSleeperDone_effect (h : execSleeperDone s = .next t) : Effect s.part t.part := by
  refine eventOf_effect (fun hp => ?_) h
  split
  · next hc _ hx => exact .sleeperDone _ hp hc hx
  · exact .none

theorem execEndOfSave_effect {c : NvCopy} (h : execEndOfSave c s = .next t) : Effect s.part t.part := by
  refine eventOf_effect (fun hp => ?_) h
  split
  · exact .none
  · next hs => exact .saveEnded _ _ hp hs

theorem execOdometerPulse_effect {line1 line2 : Bool} {lines : ScanLines} (h : execOdometerPulse line1 line2 lines s = .next t) :
    Effect s.part t.part := by
  cases h
  refine .ite (fun hp => ?_) fun _ => .odometerSeen _ _
  split
  · exact .odometerSeen _ _
  · exact .pulse _ _ _ _ hp

theorem execStandstillTimerExpiry_effect (h : execStandstillTimerExpiry s = .next t) : Effect s.part t.part := by
  refine eventOf_effect (fun hp => ?_) h
  split
  · exact .none
  · simp only
    split
    · next hm => exact .standstillIdle hm
    · next hm => exact .standstillEntered hp hm

theorem execFoldConfirm_effect {arm : Arm} {folded : Bool} (h : execFoldConfirm arm folded s = .next t) :
    Effect s.part t.part := by
  cases h
  exact .ite (fun hc => .foldConfirmed _ _ hc.1 hc.2.1 hc.2.2) fun _ => .foldSeen _ _

theorem execEmergencyStopAsserted_effect (h : execEmergencyStopAsserted s = .next t) : Effect s.part t.part := by
  cases h
  refine .ite (fun hc => .estopAsserted hc.1 hc.2) fun hc => ?_
  cases hp : s.part.powered with
  | false => exact .linesSeen _ hp
  | true => exact .estopAgain hp (by simp_all)

theorem execMoveTimerExpiry_effect {x : Axis} (h : execMoveTimerExpiry x s = .next t) : Effect s.part t.part := by
  refine eventOf_effect (fun hp => ?_) h
  have key : ∀ q, expireMove s.part x = q → Effect s.part (match q with | (p, true) => positioned p | (p, false) => p) := by
    rintro ⟨q, b⟩ hq
    have h1 : (expireMove s.part x).1 = q := by rw [hq]
    have h2 : (expireMove s.part x).2 = b := by rw [hq]
    cases b with
    | true => rw [← h1]; exact .moveExpiredPositioned x hp h2
    | false => rw [← h1]; exact .moveExpired x hp h2
  exact key _ rfl

theorem execReleaseTimerExpiry_effect (h : execReleaseTimerExpiry s = .next t) : Effect s.part t.part := by
  refine eventOf_effect (fun hp => ?_) h
  split
  · exact .none
  · next hr => exact .releaseEnded _ hp hr

theorem execLockoutRaiseTimeout_effect (h : execLockoutRaiseTimeout s = .next t) : Effect s.part t.part :=
  eventOf_effect (fun hp => .ite (fun hc => .ite (fun ha => .lockoutRaiseTimedOut hp hc.1 ha)
    fun ha => .lockoutRaiseStuck hp hc.1 (by simpa using ha)) fun _ => .none) h

theorem execRaiseTimeout_effect (h : execRaiseTimeout s = .next t) : Effect s.part t.part :=
  eventOf_effect (fun hp => .ite (fun hc => .ite (fun ha => .raiseTimedOut hp hc.1 ha)
    fun ha => .raiseStuck hp hc.1 (by simpa using ha)) fun _ => .none) h

/-- Every command has one of the effects listed. -/
theorem exec_effect {c : Instr} (h : exec c s = .next t) : Effect s.part t.part := by
  cases c with
  | powerOn => exact execPowerOn_effect h
  | startUpSettling ch level => exact eventOf_effect (fun hp => .ite (fun _ => .sample _ _ hp) fun _ => .none) h
  | partReset => exact execPartReset_effect h
  | partResetTakesEffect => exact execPartResetTakesEffect_effect h
  | odometerPulse line1 line2 lines => exact execOdometerPulse_effect h
  | standstillTimerExpiry => exact execStandstillTimerExpiry_effect h
  | channelSample ch level => exact eventOf_effect (fun hp => .sample _ _ hp) h
  | foldConfirm arm folded => exact execFoldConfirm_effect h
  | emergencyStopAsserted => exact execEmergencyStopAsserted_effect h
  | emergencyStopReleased => cases h; exact .estopReleased
  | moveTimerExpiry axis => exact execMoveTimerExpiry_effect h
  | releaseTimerExpiry => exact execReleaseTimerExpiry_effect h
  | foldTimeout => exact eventOf_effect (fun hp => .ite (fun hc => .foldTimedOut hp hc.1) fun _ => .none) h
  | penetrationTimeout => exact eventOf_effect (fun hp => .ite (fun hc => .penetrationTimedOut hp hc.1) fun _ => .none) h
  | squeezeTimerExpiry => exact eventOf_effect (fun hp => .ite (fun hc => .squeezeTimedOut hp hc.1) fun _ => .none) h
  | raiseTimeout => exact execRaiseTimeout_effect h
  | lockoutRaiseTimeout => exact execLockoutRaiseTimeout_effect h
  | endOfSave readBack => exact execEndOfSave_effect h
  | frameReceived frame => exact execFrameReceived_effect h
  | frameTransmitted => exact execFrameTransmitted_effect h
  | busOff => exact eventOf_effect (f := fun p => p.withPort { p.port with link := .busOff }) (fun _ => .busOff) h
  | linkRestart => exact execLinkRestart_effect h
  | halt => exact eventOf_effect (fun _ => .admitted _) h
  | stopPoint => exact eventOf_effect (fun _ => .admitted _) h
  | event => exact execEvent_effect h
  | sleeperDone => exact execSleeperDone_effect h
  | status => exact takeKind_effect (fun _ _ => .overrunCleared) h
  | identify => exact takeKind_effect (fun _ _ => .unchanged) h
  | authGive => exact execAuthGive_effect h
  | authTake => exact takeKind_effect (fun _ _ => .authority _) h
  | originSet => exact execOriginSet_effect h
  | settingWrite => exact execSettingWrite_effect h
  | settingRead => exact execSettingRead_effect h
  | storeSave => exact execStoreSave_effect h
  | storeLoad => exact execStoreLoad_effect h
  | zeroCapture => exact execZeroCapture_effect h
  | planWrite => exact execPlanWrite_effect h
  | planLink => exact execPlanLink_effect h
  | planClear => exact execPlanClear_effect h
  | planRead => exact execPlanRead_effect h
  | planRun => exact execPlanRun_effect h
  | planWake => exact execPlanWake_effect h
  | planStop => exact execPlanStop_effect h
  | corrGrid => exact execCorrGrid_effect h
  | corrWindow => exact execCorrWindow_effect h
  | corrData => exact execCorrData_effect h
  | corrRead => exact execCorrRead_effect h
  | trimSet => exact takeKind_effect (fun _ _ => .trimSet _) h
  | trimUp => exact takeKind_effect (fun _ _ => .trimSet _) h
  | trimDown => exact takeKind_effect (fun _ _ => .trimSet _) h
  | patternSet => exact execPatternSet_effect h
  | patternEnable => exact execPatternEnable_effect h
  | patternRead => exact execPatternRead_effect h
  | queueRead => exact execQueueRead_effect h
  | skipMark => exact execSkipMark_effect h
  | haltClear => exact execHaltClear_effect h
  | modeSet => exact execModeSet_effect h
  | cycleStart => exact execCycleStart_effect h
  | cycleStop => exact takeKind_effect (fun _ _ => .cycleStopped) h
  | unitsRaise => exact execUnitsRaise_effect h
  | faultClear => exact execFaultClear_effect h
  | unknownKindRequest => exact execUnknownKindRequest_effect h
  | powerLoss left => exact eventOf_effect (f := fun p => unpowered p left) (fun hp => .powerLoss _ hp) h

/-- One step has one of the effects listed. -/
theorem step_effect (h : step s = .next t) : Effect s.part t.part := by
  unfold step at h
  split at h
  · cases h; exact .none
  · next rest _ => exact exec_effect (s := s.withPending rest) h
end

/-- R6: a refused pulse sets at most a limit flag, and sends at most one event. -/
theorem refusePulse_cases (p : Part) (high : Bool) : refusePulse p high = p ∨ ∃ highLimit lowLimit e,
    refusePulse p high =
      handEvent (p.withTravel { p.travel with highLimit := highLimit, lowLimit := lowLimit }) e := by
  cases high with
  | true =>
    cases h : p.travel.highLimit with
    | true => left; simp [refusePulse, h]
    | false => right; exact ⟨true, p.travel.lowLimit, .chainageLimit true (chainageC p), by simp [refusePulse, h]⟩
  | false =>
    cases h : p.travel.lowLimit with
    | true => left; simp [refusePulse, h]
    | false => right; exact ⟨p.travel.highLimit, true, .chainageLimit false (chainageC p), by simp [refusePulse, h]⟩

end Sys2Proof.Machine
end

section
/-! PROOF. The bounds of the port's queues (R176, R182, R186). A hand-on never fills the last place of the transmit queue, so a
request that is taken with a place free leaves one for its reply. -/

namespace Sys2Proof.Machine
open Sys2Proof Sys2Proof.Safety

/-- At most 4 requests, at most k messages, and a report sequence of one byte. -/
def PortWithin (k : Nat) (p : Part) : Prop := p.port.rx.length ≤ 4 ∧ p.port.tx.length ≤ k ∧ p.port.seq ≤ 255

section
variable {k : Nat} {p q : Part}

/-- The moves of a hand-on stay within seven places, or within those that were filled. -/
theorem PortMoves.portWithin (hk : 7 ≤ k) (h : PortMoves p.port q.port) (hp : PortWithin k p) : PortWithin k q := by
  obtain ⟨hrx, htx, hseq⟩ := hp
  refine ⟨by rw [h.kept.2.1]; exact hrx, ?_, h.seq hseq⟩
  rcases h.tx.2 with hle | hle <;> omega

theorem closed_portWithin (hk : 7 ≤ k) : Closed (PortWithin k) where
  queue _ _ h := h
  drive _ _ h := h
  cycle _ _ h := h
  event p e h := (handEvent_moves p e).portWithin hk h
  halt p r h := (handHalt_moves p r).portWithin hk h
  stop p r h := (handStop_moves p r).portWithin hk h

theorem portWithin_afterReset (store : Store) (lines : Lines) : PortWithin k (.afterReset store lines) := by
  simp [PortWithin, Part.afterReset, Port.afterReset]

theorem portWithin_of_port_eq (h : q.port = p.port) (hp : PortWithin k p) : PortWithin k q := by
  unfold PortWithin; rw [h]; exact hp

theorem passToSupervisor_portWithin (old new : Int) (hp : PortWithin k p) : PortWithin k (passToSupervisor p old new) := by
  unfold passToSupervisor; split <;> exact hp

theorem passFromPart_portWithin (old new : Int) (hp : PortWithin k p) : PortWithin k (passFromPart p old new) := by
  unfold passFromPart; split <;> exact hp

theorem rebase_port (p : Part) : (rebase p).port = p.port := by unfold rebase; split <;> rfl

theorem moveScanFront_port (p : Part) : (moveScanFront p).port = p.port := by unfold moveScanFront; split <;> rfl

theorem writeSetting_portWithin (hk : 7 ≤ k) (id : SettingId) (v : Int) (hp : PortWithin k p) :
    PortWithin k (writeSetting p id v) := by
  cases id with
  | pitch => exact portWithin_of_port_eq (rebase_port p) hp
  | scannerOffset => exact portWithin_of_port_eq (p := p) (moveScanFront_port _) hp
  | positionTolerance => exact (closed_portWithin hk).renewAndStart hp
  | supervisorNode => exact passToSupervisor_portWithin (p := p.withWorking _) _ _ hp
  | partNode => exact passFromPart_portWithin (p := p.withWorking _) _ _ hp
  | _ => exact hp

theorem adoptSettings_portWithin (hk : 7 ≤ k) (new : Settings) (hp : PortWithin k p) :
    PortWithin k (adoptSettings p new) := by
  have rebased : PortWithin k (if new.pitch = p.store.working.pitch then p else rebase p) := by
    split
    · exact hp
    · exact portWithin_of_port_eq (rebase_port p) hp
  have moved : ∀ q : Part, PortWithin k q →
      PortWithin k (if new.scannerOffset = p.store.working.scannerOffset then q else moveScanFront q) := by
    intro q hq
    split
    · exact hq
    · exact portWithin_of_port_eq (moveScanFront_port q) hq
  have passed : ∀ q : Part, PortWithin k q → PortWithin k (passFromPart
      (passToSupervisor q p.store.working.supervisorNode new.supervisorNode) p.store.working.partNode new.partNode) :=
    fun _ hq => passFromPart_portWithin _ _ (passToSupervisor_portWithin _ _ hq)
  have renewed : ∀ q : Part, PortWithin k q →
      PortWithin k (if new.positionTolerance = p.store.working.positionTolerance then q else renewAndStart q) := by
    intro q hq
    split
    · exact hq
    · exact (closed_portWithin hk).renewAndStart hq
  exact renewed _ (passed _ (moved _ rebased))

theorem runContext_moves (p : Part) (i : ContextId) (first : Nat) (start : Option Int) :
    PortMoves p.port (runContext p i first start).port := by
  unfold runContext
  split
  · exact startContext_moves _ _ _ _
  · next x =>
    split
    · have := handPlanState_moves (p.setCtx i { p.ctx i with state := .armed, armed := some (first, x) }) i (some first)
      rwa [setCtx_port] at this
    · exact startContext_moves _ _ _ _

/-- What a block decides stays within the bounds, with the last place of the transmit queue still free. -/
theorem Decided.portWithin {r : Request} (hk : 7 ≤ k) (h : Decided r p q) (hp : PortWithin k p) : PortWithin k q := by
  have C := closed_portWithin hk
  cases h with
  | originSet origin d _ _ => exact C.renewAndStart (C.testStopPoint hp)
  | settingWritten id v _ _ _ => exact writeSetting_portWithin hk id v hp
  | loaded _ _ _ _ => exact adoptSettings_portWithin hk _ hp
  | planRun i first start _ _ => exact (runContext_moves p i first start).portWithin hk hp
  | planWoken i _ => exact (wakeContext_moves p i).portWithin hk hp
  | planStopped i _ => exact (stopContext_moves p i).portWithin hk hp
  | skipMarked n c => exact C.testStopPoint (C.withRecords hp)
  | skipCleared n => exact C.startEvent (C.testStopPoint (C.withRecords hp))
  | haltCleared l _ =>
    refine C.startEvent (C.testStopPoint ?_)
    unfold rearmLatch
    split
    · exact hp
    · exact C.halt _ _ hp
  | modeSet m =>
    cases m with
    | manual => exact hp
    | auto => exact C.startEvent (p := p.withCycle _) hp
  | cycleStarted x _ => exact C.startCycle hp
  | cycleStopped => exact C.stopCycle hp
  | unitsRaised _ _ =>
    unfold raiseUnits
    split
    · exact hp
    · exact C.startLockoutRaise hp
  | clearedInIdle _ => exact C.startEvent hp
  | lockoutCleared _ _ _ => exact C.startEvent (C.withCycle hp)
  | _ => exact hp

theorem sampleEvent_portWithin (hk : 7 ≤ k) (ch : Channel) (level : Int) (hp : PortWithin k p) :
    PortWithin k (sampleEvent ch level p) := by
  have C := closed_portWithin hk
  have taken : PortWithin k (cycleSample ch (driveSample ch (recordSample p ch level))) :=
    C.cycleSample (C.driveSample hp)
  unfold sampleEvent
  simp only
  split
  · exact PortMoves.portWithin hk (afterHandOn_moves _) (by simp only; split <;> exact taken)
  · exact taken

theorem takePulse_portWithin (hk : 7 ≤ k) (lines : ScanLines) (dir : Move) (hp : PortWithin k p) :
    PortWithin k (takePulse lines dir p) := by
  have C := closed_portWithin hk
  have entered : ∀ q : Part, PortWithin k q → PortWithin k (enterMoving q) := by
    intro q hq
    unfold enterMoving
    split
    · exact hq
    · exact C.cycleMoving hq
  have stepped : ∀ q : Part, PortWithin k q → PortWithin k (blocksTakeStep lines dir q) := by
    intro q hq
    cases dir with
    | backward => exact C.renewAndStart hq
    | forward =>
      exact (contextAdvance_moves _ _).portWithin hk ((contextAdvance_moves _ _).portWithin hk
        (C.renewAndStart (C.passRecords ((scannerAdvance_moves lines q).portWithin hk hq))))
  have refused : ∀ (q : Part) (high : Bool), PortWithin k q → PortWithin k (refusePulse q high) := by
    intro q high hq
    rcases refusePulse_cases q high with h | ⟨_, _, _, h⟩ <;> rw [h]
    · exact hq
    · exact C.event _ _ hq
  have moved : ∀ q : Part, PortWithin k q → PortWithin k (movePulse lines dir q) := by
    intro q hq
    unfold movePulse
    split
    · exact hq
    · simp only
      split
      · exact stepped _ hq
      · exact refused _ _ hq
  exact moved _ (entered _ hp)

theorem admitInTurn_portWithin (hk : 7 ≤ k) (source : ReportSource) (hp : PortWithin k p) :
    PortWithin k (admitInTurn source p) := by
  unfold admitInTurn
  split
  · next hc => exact (admitSource_moves source (Bool.and_eq_true_iff.mp hc).1).portWithin hk hp
  · exact hp

theorem acceptRecord_portWithin (hk : 7 ≤ k) (x : SleeperRecord) (hc : canAdmit p = true) (hp : PortWithin k p) :
    PortWithin k (acceptRecord p x) := by
  simp only [canAdmit, Bool.and_eq_true, decide_eq_true_eq] at hc
  obtain ⟨hrx, htx, hseq⟩ := hp
  refine ⟨hrx, ?_, ?_⟩
  · show (p.port.tx ++ [_]).length ≤ k
    simp only [List.length_append, List.length_singleton]; omega
  · show (p.port.seq + 1) % 256 ≤ 255
    omega
end

/-- Every command keeps the bounds of the port. -/
theorem Effect.portBounded {p q : Part} (h : Effect p q) (hp : PortBounded p) : PortBounded q := by
  have C := closed_portWithin (k := 8) (by decide)
  change PortWithin 8 p at hp
  change PortWithin 8 q
  obtain ⟨hrx, htx, hseq⟩ := hp
  have hp : PortWithin 8 p := ⟨hrx, htx, hseq⟩
  cases h with
  | powerOn _ => exact portWithin_afterReset _ _
  | powerLoss _ _ => exact portWithin_afterReset { p.store with copy := _, save := Option.none } p.lines
  | reset _ => exact portWithin_afterReset _ _
  | received r =>
    unfold offerRequest
    split
    · refine ⟨?_, htx, hseq⟩
      show (p.port.rx ++ [_]).length ≤ 4
      simp only [List.length_append, List.length_singleton]; omega
    · exact hp
  | sent m rest _ hm =>
    unfold sendHead
    split
    · exact portWithin_afterReset _ _
    · exact ⟨hrx, by simp only [hm, List.length_cons] at htx; show rest.length ≤ 8; omega, hseq⟩
  | linkRestarted _ =>
    unfold restartLink
    split
    · exact portWithin_afterReset _ _
    · exact ⟨Nat.zero_le _, Nat.zero_le _, hseq⟩
  | admitted source => exact admitInTurn_portWithin (by decide) source hp
  | sleeperDone x _ hc _ => exact C.renewAndStart (acceptRecord_portWithin (by decide) x hc hp)
  | sample ch level _ => exact sampleEvent_portWithin (by decide) ch level hp
  | pulse line1 line2 dir lines _ => exact takePulse_portWithin (p := observeOdometer line1 line2 p) (by decide) lines dir hp
  | standstillEntered _ _ => exact C.startEvent hp
  | foldConfirmed arm folded _ _ _ => exact C.confirmUnits (p := setFoldLine p arm folded) hp
  | estopAsserted _ _ => exact C.cycleEstop (p := setEstopLine p true) hp
  | moveExpired x _ _ => exact C.expireMove hp
  | moveExpiredPositioned x _ _ => exact C.positioned (C.expireMove hp)
  | releaseEnded _ _ _ => exact C.cycleReleaseEnd (C.withDrive hp)
  | foldTimedOut _ _ => exact C.endFolding (C.withCycle hp)
  | penetrationTimedOut _ _ => exact C.enterSqueezing (C.withCycle hp)
  | squeezeTimedOut _ _ => exact C.endSqueezing (fun _ => C.enterPenetrating) (C.endSqueezeOf hp)
  | raiseTimedOut _ _ _ => exact C.endRaise (fun _ => C.enterPenetrating) hp
  | raiseStuck _ _ _ => exact C.stuckFault hp
  | lockoutRaiseTimedOut _ _ _ => exact C.afterLockoutDepth hp
  | lockoutRaiseStuck _ _ _ => exact C.addCause (C.withCycle hp)
  | saveEnded _ _ _ _ => exact C.event _ _ hp
  | request r rest a _ hq ht ha =>
    have hfound : PortWithin 7 (foundPart p r rest) := by
      unfold PortWithin
      rw [foundPart_port]
      exact ⟨by simp only [hq, List.length_cons] at hrx; show rest.length ≤ 4; omega, Nat.le_of_lt_succ ht, hseq⟩
    have hdone : PortWithin 7 a.part := by
      rcases ha with ha | ⟨-, ha⟩
      · rw [ha]; exact hfound
      · exact ha.portWithin (by decide) hfound
    obtain ⟨hrx, htx, hseq⟩ := hdone
    refine ⟨hrx, ?_, hseq⟩
    show (a.part.port.tx ++ [_]).length ≤ 8
    simp only [List.length_append, List.length_singleton]; omega
  | _ => exact hp

/-- Settles O56, by what a command can do and what a hand-on leaves free. -/
theorem thePortStaysWithinItsBounds : Obligations.ThePortStaysWithinItsBounds := by
  unfold Obligations.ThePortStaysWithinItsBounds
  exact fun s t hs h => (step_effect h).portBounded hs

end Sys2Proof.Machine
end

section
/-! PROOF. The registers that only samples, settings, the store and the correction requests write: the histories, the working
record, the trim and the correction table (R13, R95, R100, R105, R194, R198). -/

namespace Sys2Proof.Machine
open Sys2Proof Sys2Proof.Safety

/-! ### The settings record (R194) -/

theorem allChannels_mem (ch : Channel) : ch ∈ allChannels := by cases ch <;> decide

theorem plainSettings_mem_or (id : SettingId) :
    id ∈ plainSettings ∨ (∃ ch, id = .zero ch) ∨ ∃ ch, id = .sensitivity ch := by
  cases id with
  | zero ch => exact .inr (.inl ⟨ch, rfl⟩)
  | sensitivity ch => exact .inr (.inr ⟨ch, rfl⟩)
  | _ => left; decide

theorem allSettings_mem (id : SettingId) : id ∈ allSettings := by
  simp only [allSettings, List.mem_append, List.mem_map]
  rcases plainSettings_mem_or id with h | ⟨ch, rfl⟩ | ⟨ch, rfl⟩
  · exact .inl (.inl h)
  · exact .inl (.inr ⟨ch, allChannels_mem ch, rfl⟩)
  · exact .inr ⟨ch, allChannels_mem ch, rfl⟩

theorem PerChannel.get_set {α : Type} (t : PerChannel α) (ch c : Channel) (v : α) :
    (t.set ch v).get c = if c = ch then v else t.get c := by
  cases ch <;> cases c <;> rfl

/-- A setting that is replaced reads back, and no other setting changes. -/
theorem Settings.get_set (st : Settings) (id j : SettingId) (v : Int) :
    (st.set id v).get j = if j = id then v else st.get j := by
  by_cases h : j = id
  · subst h
    rw [if_pos rfl]
    cases j with
    | zero ch => exact (PerChannel.get_set ..).trans (if_pos rfl)
    | sensitivity ch => exact (PerChannel.get_set ..).trans (if_pos rfl)
    | _ => rfl
  · rw [if_neg h]
    cases id with
    | zero ch =>
      cases j with
      | zero c => exact (PerChannel.get_set ..).trans (if_neg fun hc => h (congrArg _ hc))
      | _ => rfl
    | sensitivity ch =>
      cases j with
      | sensitivity c => exact (PerChannel.get_set ..).trans (if_neg fun hc => h (congrArg _ hc))
      | _ => rfl
    | _ => cases j <;> first | rfl | exact absurd rfl h

/-- R194: what makes a record consistent. -/
theorem consistent_iff (st : Settings) : st.consistent = true ↔
    (∀ id : SettingId, id.admits (st.get id) = true) ∧ st.wideLimit < st.longLimit ∧ st.partNode ≠ st.supervisorNode := by
  simp only [Settings.consistent, Bool.and_eq_true, List.all_eq_true, decide_eq_true_eq, and_assoc]
  exact and_congr_left' ⟨fun h id => h id (allSettings_mem id), fun h id _ => h id⟩

/-- R194: every setting of a consistent record lies within its range. -/
theorem consistent_range {st : Settings} (h : st.consistent = true) (id : SettingId) :
    id.range.1 ≤ st.get id ∧ st.get id ≤ id.range.2 := by
  have := ((consistent_iff st).1 h).1 id
  simp only [SettingId.admits, Bool.and_eq_true, decide_eq_true_eq] at this
  exact this.1

theorem factory_consistent : Settings.factory.consistent = true := by decide

theorem ofWords_consistent {c : NvCopy} (h : copyValid c = true) : (Settings.ofWords c.words).consistent = true := by
  simp only [copyValid, Bool.and_eq_true] at h
  exact h.2

/-- R201: a zero within the converter's range leaves a record consistent. -/
theorem consistent_set_zero {st : Settings} {ch : Channel} {v : Int} (h : st.consistent = true) (hlow : -32768 ≤ v)
    (hhigh : v ≤ 32767) : (st.set (.zero ch) v).consistent = true := by
  obtain ⟨hall, hlimits, hnodes⟩ := (consistent_iff st).1 h
  refine (consistent_iff _).2 ⟨fun id => ?_, hlimits, hnodes⟩
  rw [Settings.get_set]
  split
  · next hid => subst hid; simp [SettingId.admits, SettingId.range, hlow, hhigh]
  · exact hall id

/-! ### Histories and means (R13, R15) -/

/-- At most 64 counts, each in the converter's range. -/
def CountsLegal (h : List Int) : Prop := h.length ≤ 64 ∧ ∀ c ∈ h, -32768 ≤ c ∧ c ≤ 32767

theorem convert_bounds (level : Int) : -32768 ≤ convert level ∧ convert level ≤ 32767 := by
  simp only [convert, clampTo]
  split
  · omega
  · split <;> omega

/-- R13: a count that joins a history keeps it legal. -/
theorem appendCount_legal {h : List Int} (level : Int) (hh : CountsLegal h) : CountsLegal (appendCount h (convert level)) := by
  obtain ⟨hlen, hrange⟩ := hh
  refine ⟨by simp only [appendCount, List.length_drop, List.length_append, List.length_singleton]; omega, fun c hc => ?_⟩
  rcases List.mem_append.1 (List.mem_of_mem_drop hc) with hc | hc
  · exact hrange c hc
  · rw [List.mem_singleton.1 hc]; exact convert_bounds level

theorem sum_bounds {lo hi : Int} {l : List Int} (h : ∀ c ∈ l, lo ≤ c ∧ c ≤ hi) :
    lo * l.length ≤ l.sum ∧ l.sum ≤ hi * l.length := by
  induction l with
  | nil => simp
  | cons x l ih =>
    have hx := h x (List.mem_cons_self ..)
    have hl := ih fun c hc => h c (List.mem_cons_of_mem _ hc)
    simp only [List.length_cons, List.sum_cons, Nat.cast_add, Nat.cast_one, mul_add, mul_one]
    omega

/-- R15: the mean of some counts lies between their bounds; with no count it is 0. -/
theorem meanCount_bounds {lo hi : Int} {l : List Int} (hlo : lo ≤ 0) (hhi : 0 ≤ hi) (h : ∀ c ∈ l, lo ≤ c ∧ c ≤ hi) :
    lo ≤ meanCount l ∧ meanCount l ≤ hi := by
  cases l with
  | nil => exact ⟨hlo, hhi⟩
  | cons x l =>
    have hpos : (0 : Int) < (x :: l).length := by simp only [List.length_cons]; omega
    have hs := sum_bounds h
    exact ⟨le_roundDiv hpos hs.1, roundDiv_le hpos hs.2⟩

/-! ### The correction table (R95, R100, R102) -/

/-- R95, R100: the entries are 0..255 in canonical form, with legal halves. -/
def EntriesLegal (es : Table CorrEntry) : Prop :=
  Table.wf unsetEntry es = true ∧ ∀ x ∈ es, x.1 ≤ 255 ∧ HalfLegal x.2.lateral ∧ HalfLegal x.2.vertical

/-- R100: an open window's cursor lies in its range. -/
def WindowLegal (w : CorrWindow) : Prop := w.first ≤ w.cursor ∧ w.cursor ≤ w.last ∧ w.last ≤ 255

theorem storedHalf_legal (v : Int) : HalfLegal (storedHalf v) := by
  intro x hx
  simp only [storedHalf, clampTo] at hx
  split at hx
  · cases hx
  · cases hx
    split
    · omega
    · split <;> omega

theorem advanceCursor_legal {w : CorrWindow} (h : WindowLegal w) : WindowLegal (advanceCursor w) := by
  obtain ⟨hfirst, hlast, hmax⟩ := h
  simp only [WindowLegal, advanceCursor]
  split <;> omega

theorem setEntry_legal {es : Table CorrEntry} {k : Nat} {v : CorrEntry} (h : EntriesLegal es) (hk : k ≤ 255)
    (hl : HalfLegal v.lateral) (hv : HalfLegal v.vertical) : EntriesLegal (setEntry es k v) := by
  refine ⟨setEntry_wf _ _ _ h.1, fun x hx => ?_⟩
  rcases Table.mem_write _ _ _ _ _ hx with hx | rfl
  · exact h.2 x hx
  · exact ⟨hk, hl, hv⟩

/-- R102: the pairs of a CORR DATA keep the entries and the cursor legal. -/
theorem foldl_writePair_legal (pairs : List (Int × Int)) (es : Table CorrEntry) (w : CorrWindow) (he : EntriesLegal es)
    (hw : WindowLegal w) :
    EntriesLegal (pairs.foldl writePair (es, w)).1 ∧ WindowLegal (pairs.foldl writePair (es, w)).2 := by
  induction pairs generalizing es w with
  | nil => exact ⟨he, hw⟩
  | cons pair pairs ih =>
    exact ih _ _ (setEntry_legal he (le_trans hw.2.1 hw.2.2) (storedHalf_legal _) (storedHalf_legal _))
      (advanceCursor_legal hw)

/-! ### The registers -/

/-- The histories, the settings store, the trim and the correction table. -/
def Part.registers (p : Part) : PerChannel (List Int) × Store × Int × Corrections := (p.history, p.store, p.trim, p.corr)

/-- The four laws of the registers. -/
def RegistersLegal (p : Part) : Prop := HistoriesLegal p ∧ StoreLegal p ∧ TrimLegal p ∧ CorrectionsLegal p

section
variable {p q : Part}

theorem registers_of_ground (h : q.ground = p.ground) : q.registers = p.registers := by
  simp only [Part.ground, Part.registers, Ground.mk.injEq, Prod.mk.injEq] at *; simp [h]

theorem registers_of_offPlan (h : q.offPlan = p.offPlan) : q.registers = p.registers := by
  simp only [Part.offPlan, Part.registers, Prod.mk.injEq] at *; simp [h]

theorem registersLegal_congr (h : q.registers = p.registers) : RegistersLegal q ↔ RegistersLegal p := by
  simp only [Part.registers, Prod.mk.injEq] at h
  obtain ⟨hh, hs, ht, hc⟩ := h
  simp only [RegistersLegal, HistoriesLegal, StoreLegal, TrimLegal, CorrectionsLegal, hh, hs, ht, hc]

/-- What keeps the ground keeps the laws of the registers. -/
theorem RegistersLegal.of_ground (hp : RegistersLegal p) (h : q.ground = p.ground) : RegistersLegal q :=
  (registersLegal_congr (registers_of_ground h)).2 hp

theorem RegistersLegal.of_offPlan (hp : RegistersLegal p) (h : q.offPlan = p.offPlan) : RegistersLegal q :=
  (registersLegal_congr (registers_of_offPlan h)).2 hp

theorem RegistersLegal.of_registers (hp : RegistersLegal p) (h : q.registers = p.registers) : RegistersLegal q :=
  (registersLegal_congr h).2 hp

/-- A change of the working record outside a save. -/
theorem RegistersLegal.withStore (hp : RegistersLegal p) {st : Store} (hcons : st.working.consistent = true)
    (hsave : st.save = none) : RegistersLegal { p with store := st } :=
  ⟨hp.1, ⟨hcons, fun c hc => by rw [hsave] at hc; cases hc⟩, hp.2.2⟩

/-- A reset with a consistent working record outside a save. -/
theorem registersLegal_afterReset {st : Store} {lines : Lines} (h : st.working.consistent = true)
    (hs : ∀ c, st.save = some c → c = st.working.snapshot) : RegistersLegal (.afterReset st lines) := by
  have htrim : (-40 : Int) ≤ 0 ∧ (0 : Int) ≤ 40 := by omega
  refine ⟨fun ch => ?_, ⟨h, hs⟩, htrim, rfl, by simp [Part.afterReset, Corrections.afterReset], rfl, ?_⟩
  · cases ch <;> exact ⟨Nat.zero_le _, by simp [Part.afterReset, PerChannel.fill, PerChannel.get]⟩
  · exact ⟨by show (1000 : Int) ≤ 5000; omega, by show (5000 : Int) ≤ 20000; omega, fun w hw => by cases hw⟩

theorem loadedStore_consistent (c : NvCopy) : (loadedStore c).working.consistent = true := by
  unfold loadedStore
  split
  · next h => exact ofWords_consistent h
  · exact factory_consistent

theorem loadedStore_save (c : NvCopy) : (loadedStore c).save = none := by unfold loadedStore; split <;> rfl

theorem rebase_registers (p : Part) : (rebase p).registers = p.registers := by unfold rebase; split <;> rfl

theorem moveScanFront_registers (p : Part) : (moveScanFront p).registers = p.registers := by
  unfold moveScanFront; split <;> rfl

theorem passToSupervisor_registers (p : Part) (old new : Int) : (passToSupervisor p old new).registers = p.registers := by
  unfold passToSupervisor; split <;> rfl

theorem passFromPart_registers (p : Part) (old new : Int) : (passFromPart p old new).registers = p.registers := by
  unfold passFromPart; split <;> rfl

/-- R196: of the registers, a write changes the working record alone. -/
theorem writeSetting_registers (p : Part) (id : SettingId) (v : Int) :
    (writeSetting p id v).registers = (p.withWorking (p.store.working.set id v)).registers := by
  cases id with
  | pitch =>
    have h := rebase_registers p
    simp only [Part.registers, Prod.mk.injEq] at h
    simp only [writeSetting, Part.registers, Part.withWorking_history, Part.withWorking_store, Part.withWorking_trim,
      Part.withWorking_corr, h]
  | scannerOffset => exact moveScanFront_registers _
  | positionTolerance => exact registers_of_ground (renewAndStart_ground _)
  | supervisorNode => exact passToSupervisor_registers _ _ _
  | partNode => exact passFromPart_registers _ _ _
  | _ => rfl

/-- R200: of the registers, a load changes the working record and the store status alone. -/
theorem adoptSettings_registers (p : Part) (new : Settings) : (adoptSettings p new).registers =
    ({ p with store := { p.store with working := new, status := .loaded } } : Part).registers := by
  have rebased : (if new.pitch = p.store.working.pitch then p else rebase p).registers = p.registers := by
    split
    · rfl
    · exact rebase_registers p
  have moved : ∀ q : Part,
      (if new.scannerOffset = p.store.working.scannerOffset then q else moveScanFront q).registers = q.registers := by
    intro q
    split
    · rfl
    · exact moveScanFront_registers q
  have renewed : ∀ q : Part,
      (if new.positionTolerance = p.store.working.positionTolerance then q else renewAndStart q).registers = q.registers := by
    intro q
    split
    · rfl
    · exact registers_of_ground (renewAndStart_ground q)
  have put : ∀ q : Part, q.registers =
      ({ p with store := { p.store with working := { new with partNode := p.store.working.partNode }, status := .loaded } }
        : Part).registers →
      (q.withWorking { q.store.working with partNode := new.partNode }).registers =
        ({ p with store := { p.store with working := new, status := .loaded } } : Part).registers := by
    intro q hq
    simp only [Part.registers, Prod.mk.injEq] at hq ⊢
    obtain ⟨hh, hs, ht, hc⟩ := hq
    refine ⟨hh, ?_, ht, hc⟩
    rw [Part.withWorking_store, hs]
  refine put _ ?_
  rw [renewed, passFromPart_registers, passToSupervisor_registers, moved]
  simp only [Part.registers, Prod.mk.injEq] at rebased ⊢
  obtain ⟨hh, hs, ht, hc⟩ := rebased
  exact ⟨hh, by rw [hs], ht, hc⟩

theorem runContext_offPlan (p : Part) (i : ContextId) (first : Nat) (start : Option Int) :
    (runContext p i first start).offPlan = p.offPlan := by
  unfold runContext
  split
  · exact startContext_offPlan _ _ _ _
  · split
    · exact (handPlanState_offPlan _ _ _).trans (setCtx_offPlan _ _ _)
    · exact startContext_offPlan _ _ _ _

theorem foundPart_registersLegal (r : Request) (rest : List Request) (hp : RegistersLegal p) :
    RegistersLegal (foundPart p r rest) := by
  obtain ⟨hh, hs, ht, hwf, hentries, hbase, hlow, hhigh, hw⟩ := hp
  refine ⟨?_, ?_, ?_, ?_, ?_, ?_, ?_, ?_, fun w h => hw w ?_⟩
  · simpa [HistoriesLegal] using hh
  · simpa [StoreLegal] using hs
  · simpa [TrimLegal] using ht
  · simpa using hwf
  · simpa using hentries
  · simpa using hbase
  · simpa using hlow
  · simpa using hhigh
  · rw [foundPart_window] at h
    exact (Option.filter_eq_some_iff.1 h).1

theorem rearmLatch_ground (p : Part) (h : Nat) : (rearmLatch p h).ground = p.ground := by
  unfold rearmLatch
  split
  · rfl
  · exact (ground_of_offPort (handHalt_offPort _ _)).trans rfl

theorem setMode_ground (p : Part) (m : Mode) : (setMode p m).ground = p.ground := by
  cases m with
  | manual => rfl
  | auto => exact startEvent_ground _

theorem raiseUnits_ground (p : Part) : (raiseUnits p).ground = p.ground := by
  unfold raiseUnits; split <;> simp

theorem markSkip_ground (p : Part) (n : Nat) (c : Option SkipCause) : (markSkip p n c).ground = p.ground := by
  simp [markSkip]

/-- What a block decides keeps the laws of the registers. -/
theorem Decided.registersLegal {r : Request} (h : Decided r p q) (hp : RegistersLegal p) : RegistersLegal q := by
  obtain ⟨hh, hs, ht, hc⟩ := id hp
  cases h with
  | originSet origin d _ _ =>
    exact hp.of_registers ((registers_of_ground ((renewAndStart_ground _).trans (testStopPoint_ground _))).trans rfl)
  | settingWritten id v hcons hsave _ =>
    exact (hp.withStore (st := { p.store with working := p.store.working.set id v }) hcons hsave).of_registers
      (writeSetting_registers p id v)
  | saveBegun _ => exact ⟨hh, ⟨hs.1, fun c hc => by cases hc; rfl⟩, ht, hc⟩
  | loadFailed hsave => exact hp.withStore hs.1 hsave
  | loaded hsave _ hvalid _ =>
    exact (hp.withStore (st := { p.store with working := _, status := .loaded }) (ofWords_consistent hvalid)
      hsave).of_registers (adoptSettings_registers p _)
  | zeroCaptured ch hsave =>
    have hmean := meanCount_bounds (by decide) (by decide) (hh ch).2
    exact hp.withStore (st := { p.store with working := _ }) (consistent_set_zero hs.1 hmean.1 hmean.2) hsave
  | planRun i first start _ _ => exact hp.of_offPlan (runContext_offPlan p i first start)
  | planWoken i _ => exact hp.of_offPlan (wakeContext_offPlan p i)
  | planStopped i _ => exact hp.of_offPlan (stopContext_offPlan p i)
  | gridSet base spacing hbase hlow hhigh =>
    exact ⟨hh, hs, ht, rfl, by simp, hbase, by simpa using hlow, by simpa using hhigh, hc.2.2.2.2.2⟩
  | windowOpened first last mode hle hmax =>
    obtain ⟨hwf, hentries, hbase, hlow, hhigh, -⟩ := hc
    exact ⟨hh, hs, ht, hwf, hentries, hbase, hlow, hhigh, fun w hw => by cases hw; exact ⟨le_refl _, hle, hmax⟩⟩
  | pairsWritten w pairs hw =>
    obtain ⟨hwf, hentries, hbase, hlow, hhigh, hwin⟩ := hc
    obtain ⟨he, hl⟩ := foldl_writePair_legal pairs _ w ⟨hwf, hentries⟩ (hwin w hw)
    exact ⟨hh, hs, ht, he.1, he.2, hbase, hlow, hhigh, fun v hv => by cases hv; exact hl⟩
  | cursorRead w hw =>
    obtain ⟨hwf, hentries, hbase, hlow, hhigh, hwin⟩ := hc
    refine ⟨hh, hs, ht, hwf, hentries, hbase, hlow, hhigh, fun v hv => ?_⟩
    cases hv
    cases w.mode with
    | edit => exact hwin w hw
    | write => exact advanceCursor_legal (hwin w hw)
  | trimSet v =>
    refine ⟨hh, hs, ?_, hc⟩
    simp only [TrimLegal, clampTo]
    split
    · omega
    · split <;> omega
  | skipMarked n c => exact hp.of_ground (markSkip_ground p n c)
  | skipCleared n => exact hp.of_ground ((startEvent_ground _).trans (markSkip_ground p n none))
  | haltCleared l _ =>
    exact hp.of_ground ((startEvent_ground _).trans ((testStopPoint_ground _).trans (rearmLatch_ground p l)))
  | modeSet m => exact hp.of_ground (setMode_ground p m)
  | cycleStarted x _ => exact hp.of_ground (startCycle_ground p x)
  | cycleStopped => exact hp.of_ground (stopCycle_ground p)
  | unitsRaised _ _ => exact hp.of_ground (raiseUnits_ground p)
  | clearedInIdle _ => exact hp.of_ground (startEvent_ground p)
  | lockoutCleared _ _ _ => exact hp.of_ground (startEvent_ground _)
  | _ => exact hp

theorem recordSample_registersLegal (ch : Channel) (level : Int) (hp : RegistersLegal p) :
    RegistersLegal (recordSample p ch level) := by
  refine ⟨fun c => ?_, hp.2⟩
  show CountsLegal ((p.history.set ch (appendCount (p.history.get ch) (convert level))).get c)
  rw [PerChannel.get_set]
  split
  · exact appendCount_legal level (hp.1 ch)
  · exact hp.1 c

theorem driveSample_ground (ch : Channel) (p : Part) : (driveSample ch p).ground = p.ground := by
  unfold driveSample
  split
  · rfl
  · next x _ =>
    have h := updateAxis_ground p x
    split <;> simp_all

theorem cycleSample_ground (ch : Channel) (p : Part) : (cycleSample ch p).ground = p.ground := by
  unfold cycleSample
  split
  · exact depthSample_ground _ _
  · split
    · exact pressureSample_ground _ _
    · rfl

theorem settle_registers (p : Part) : (settle p).registers = p.registers := by
  unfold settle
  simp only
  rw [registers_of_ground (ground_of_offPort (afterHandOn_offPort _))]
  split <;> rfl

theorem sampleEvent_registersLegal (ch : Channel) (level : Int) (hp : RegistersLegal p) :
    RegistersLegal (sampleEvent ch level p) := by
  have taken : RegistersLegal (cycleSample ch (driveSample ch (recordSample p ch level))) :=
    (recordSample_registersLegal ch level hp).of_ground ((cycleSample_ground _ _).trans (driveSample_ground _ _))
  unfold sampleEvent
  simp only
  split
  · exact taken.of_registers (settle_registers _)
  · exact taken

theorem registers_of_offScanner (h : q.offScanner = p.offScanner) : q.registers = p.registers := by
  simp only [Part.offScanner, Part.registers, Prod.mk.injEq] at *; simp [h]

theorem blocksTakeStep_registers (lines : ScanLines) (dir : Move) (p : Part) :
    (blocksTakeStep lines dir p).registers = p.registers := by
  cases dir with
  | backward => exact registers_of_ground (renewAndStart_ground p)
  | forward =>
    calc (blocksTakeStep lines .forward p).registers
        = (renewAndStart (passRecords (scannerAdvance lines p))).registers :=
          registers_of_offPlan ((contextAdvance_offPlan _ _).trans (contextAdvance_offPlan _ _))
      _ = (scannerAdvance lines p).registers :=
          registers_of_ground ((renewAndStart_ground _).trans (ground_of_offQueue (passRecords_offQueue _)))
      _ = p.registers := registers_of_offScanner (scannerAdvance_offScanner p lines)

theorem movePulse_registers (lines : ScanLines) (dir : Move) (p : Part) : (movePulse lines dir p).registers = p.registers := by
  unfold movePulse
  split
  · rfl
  · simp only
    split
    · exact blocksTakeStep_registers _ _ _
    · rcases refusePulse_cases p (decide (maxChainage < chainageOf p.travel p.store.working.pitch (pulsesAfter p dir)))
        with h | ⟨_, _, _, h⟩ <;> rw [h]
      exact (registers_of_ground (handEvent_ground _ _)).trans rfl

theorem takePulse_registers (lines : ScanLines) (dir : Move) (p : Part) : (takePulse lines dir p).registers = p.registers := by
  refine (movePulse_registers _ _ _).trans ?_
  unfold enterMoving
  split
  · rfl
  · exact (registers_of_ground (cycleMoving_ground _)).trans rfl
end

/-- Every command keeps the laws of the registers. -/
theorem Effect.registersLegal {p q : Part} (h : Effect p q) (hp : RegistersLegal p) : RegistersLegal q := by
  obtain ⟨hh, hs, ht, hc⟩ := id hp
  have restart : RegistersLegal (resetPart p) := registersLegal_afterReset hs.1 hs.2
  cases h with
  | powerOn _ =>
    exact registersLegal_afterReset (loadedStore_consistent _) fun c hc => by rw [loadedStore_save] at hc; cases hc
  | powerLoss left _ =>
    exact registersLegal_afterReset (st := { p.store with copy := copyLeft p.store left, save := Option.none })
      (lines := p.lines) hs.1 fun c hc => by cases hc
  | reset _ => exact restart
  | received r => unfold offerRequest; split <;> exact hp
  | sent m rest _ _ =>
    unfold sendHead
    split
    · exact restart
    · exact hp
  | linkRestarted _ =>
    unfold restartLink
    split
    · exact restart
    · obtain ⟨hwf, hentries, hbase, hlow, hhigh, -⟩ := hc
      exact ⟨hh, hs, ht, hwf, hentries, hbase, hlow, hhigh, fun w hw => by cases hw⟩
  | admitted source =>
    unfold admitInTurn
    split
    · exact hp.of_ground (ground_of_offPort (admitSource_offPort p source))
    · exact hp
  | sleeperDone x _ _ _ => exact hp.of_ground ((renewAndStart_ground _).trans (acceptRecord_ground p x))
  | sample ch level _ => exact sampleEvent_registersLegal ch level hp
  | pulse line1 line2 dir lines _ => exact hp.of_registers (takePulse_registers _ _ _)
  | standstillEntered _ _ => exact hp.of_registers ((registers_of_ground (startEvent_ground _)).trans rfl)
  | foldConfirmed arm folded _ _ _ => exact hp.of_registers ((registers_of_ground (confirmUnits_ground _)).trans rfl)
  | estopAsserted _ _ => exact hp.of_registers ((registers_of_ground (cycleEstop_ground _)).trans rfl)
  | moveExpired x _ _ => exact hp.of_ground (expireMove_ground p x)
  | moveExpiredPositioned x _ _ => exact hp.of_ground ((positioned_ground _).trans (expireMove_ground p x))
  | releaseEnded _ _ _ => exact hp.of_ground ((cycleReleaseEnd_ground _ _).trans (endRelease_ground p))
  | foldTimedOut _ _ => exact hp.of_ground (endFolding_ground _)
  | penetrationTimedOut _ _ => exact hp.of_ground (enterSqueezing_ground _)
  | squeezeTimedOut _ _ => exact hp.of_ground (endSqueezing_ground _ enterPenetrating_ground)
  | raiseTimedOut _ _ _ => exact hp.of_ground (endRaise_ground _ enterPenetrating_ground)
  | raiseStuck _ _ _ => exact hp.of_ground (stuckFault_ground p)
  | lockoutRaiseTimedOut _ _ _ => exact hp.of_ground (afterLockoutDepth_ground p)
  | lockoutRaiseStuck _ _ _ => exact hp.of_ground (addCause_ground _ _ _)
  | saveEnded snapshot readBack _ _ =>
    exact (hp.withStore (st := savedStore p.store snapshot readBack) hs.1 rfl).of_ground (handEvent_ground _ _)
  | request r rest a _ _ _ ha =>
    have hfound := foundPart_registersLegal r rest hp
    have hdone : RegistersLegal a.part := by
      rcases ha with ha | ⟨-, ha⟩
      · rw [ha]; exact hfound
      · exact ha.registersLegal hfound
    exact hdone.of_ground rfl
  | _ => exact hp

/-- Settles O57, by what a command can do to the registers. -/
theorem registersStayInRange : Obligations.RegistersStayInRange := by
  unfold Obligations.RegistersStayInRange
  exact fun s t hh hs ht hc h => (step_effect h).registersLegal ⟨hh, hs, ht, hc⟩

end Sys2Proof.Machine
end

section
/-! PROOF. Plan memory and the plan contexts (R56, R61, R70, R72). Every operation of a context changes which slots are IN_USE and
no contents; so each is described by the slots that are IN_USE after it (`Reuse`), and plan memory stays legal when these are the
slots that the contexts then hold. -/

namespace Sys2Proof.Machine
open Sys2Proof Sys2Proof.Safety

/-! ### Plan memory alone -/

/-- R56 to R59: plan memory is in canonical form over slots 0..511, with legal slots and descriptors. -/
def MemoryLegal (plan : Table Slot) : Prop :=
  Table.wf emptySlot plan = true ∧ (∀ x ∈ plan, x.1 ≤ 511) ∧
  ∀ k, SlotLegal (slotAt plan k) ∧ ∀ d, (slotAt plan k).contents = some d → DescriptorLegal d

/-- A slot is IN_USE. -/
def InUse (plan : Table Slot) (k : Nat) : Prop := (slotAt plan k).state = .inUse

/-- A slot holds a segment of a context's own kind. -/
def OwnAt (plan : Table Slot) (i : ContextId) (k : Nat) : Prop :=
  ∃ d, (slotAt plan k).contents = some d ∧ isOwnKind i d = true

/-- Plan memory has become plan', with the same contents, and the slots IN_USE are those of `use`. -/
structure Reuse (plan plan' : Table Slot) (use : Nat → Prop) : Prop where
  memory : MemoryLegal plan'
  contents : ∀ k, (slotAt plan' k).contents = (slotAt plan k).contents
  inUse : ∀ k, InUse plan' k ↔ use k

theorem Table.read_mem {α : Type} {dflt : α} {t : Table α} {k : Nat} (h : Table.read dflt t k ≠ dflt) :
    (k, Table.read dflt t k) ∈ t := by
  induction t with
  | nil => exact absurd rfl h
  | cons y t ih =>
    obtain ⟨i, w⟩ := y
    simp only [Table.read] at h ⊢
    split
    · next hi => simp [hi]
    · next hi => rw [if_neg hi] at h; exact List.mem_cons_of_mem _ (ih h)

theorem Table.above_filter {α : Type} {b : Nat} {t : Table α} (f : Nat × α → Bool) (h : Table.above b t) :
    Table.above b (t.filter f) := fun x hx => h x (List.mem_filter.1 hx).1

/-- A canonical store with some entries removed is canonical. -/
theorem Table.wf_filter {α : Type} [DecidableEq α] {dflt : α} {t : Table α} (f : Nat × α → Bool)
    (h : Table.wf dflt t = true) : Table.wf dflt (t.filter f) = true := by
  induction t with
  | nil => rfl
  | cons y t ih =>
    obtain ⟨i, v⟩ := y
    obtain ⟨hv, ha, ht⟩ := (Table.wf_cons dflt i v t).1 h
    rw [List.filter_cons]
    split
    · exact (Table.wf_cons ..).2 ⟨hv, Table.above_filter f ha, ih ht⟩
    · exact ih ht

/-- What is read of a canonical store whose entries of some numbers are removed. -/
theorem Table.read_filter {α : Type} [DecidableEq α] {dflt : α} {t : Table α} (f : Nat → Bool) (k : Nat)
    (h : Table.wf dflt t = true) :
    Table.read dflt (t.filter fun x => f x.1) k = if f k then Table.read dflt t k else dflt := by
  induction t with
  | nil => simp [Table.read]
  | cons y t ih =>
    obtain ⟨i, v⟩ := y
    obtain ⟨-, ha, ht⟩ := (Table.wf_cons dflt i v t).1 h
    rw [List.filter_cons]
    by_cases hik : i = k
    · subst hik
      have habove := Table.read_of_above dflt _ i (Table.above_filter (fun x => f x.1) ha)
      cases hf : f i <;> simp [Table.read, habove]
    · split
      · simp only [Table.read, if_neg hik]; exact ih ht
      · rw [ih ht]; simp only [Table.read, if_neg hik]

section
variable {plan plan' plan'' : Table Slot} {k : Nat} {use use' : Nat → Prop}

theorem MemoryLegal.number_le (h : MemoryLegal plan) {d : Descriptor} (hd : (slotAt plan k).contents = some d) : k ≤ 511 := by
  have hne : slotAt plan k ≠ emptySlot := by
    intro he; rw [he] at hd; cases hd
  exact h.2.1 _ (Table.read_mem hne)

theorem MemoryLegal.setSlot {v : Slot} (h : MemoryLegal plan) (hk : k ≤ 511) (hv : SlotLegal v)
    (hd : ∀ d, v.contents = some d → DescriptorLegal d) : MemoryLegal (setSlot plan k v) := by
  obtain ⟨hwf, hmax, hslots⟩ := h
  refine ⟨setSlot_wf _ _ _ hwf, fun x hx => ?_, fun j => ?_⟩
  · rcases Table.mem_write _ _ _ _ _ hx with hx | rfl
    · exact hmax x hx
    · exact hk
  · rw [slotAt_setSlot _ _ _ _ hwf]
    split
    · exact ⟨hv, hd⟩
    · exact hslots j

theorem Reuse.refl (h : MemoryLegal plan) : Reuse plan plan (InUse plan) := ⟨h, fun _ => rfl, fun _ => Iff.rfl⟩

theorem Reuse.trans (h1 : Reuse plan plan' use) (h2 : Reuse plan' plan'' use') : Reuse plan plan'' use' :=
  ⟨h2.memory, fun k => (h2.contents k).trans (h1.contents k), h2.inUse⟩

theorem Reuse.congr (h : Reuse plan plan' use) (hu : ∀ k, use k ↔ use' k) : Reuse plan plan' use' :=
  ⟨h.memory, h.contents, fun k => (h.inUse k).trans (hu k)⟩

theorem Reuse.ownAt (h : Reuse plan plan' use) {i : ContextId} : OwnAt plan' i k ↔ OwnAt plan i k := by
  unfold OwnAt; rw [h.contents k]

/-- A slot with contents is put into a state with its contents kept. -/
theorem reuse_setSlot (h : MemoryLegal plan) {d : Descriptor} (hd : (slotAt plan k).contents = some d) (st : SlotState)
    (code : Option CompletionCode) (hst : st ≠ .empty) (hcode : code.isSome = true ↔ st = .done) :
    Reuse plan (setSlot plan k { slotAt plan k with state := st, code := code })
      (fun j => if j = k then st = .inUse else InUse plan j) := by
  have hlegal := h.2.2 k
  refine ⟨h.setSlot (h.number_le hd) ⟨hcode, ?_⟩ fun d' hd' => hlegal.2 d' hd', fun j => ?_, fun j => ?_⟩
  · simp [hd, hst]
  · rw [slotAt_setSlot _ _ _ _ h.1]
    split
    · next hj => rw [hj]
    · rfl
  · unfold InUse
    rw [slotAt_setSlot _ _ _ _ h.1]
    split <;> exact Iff.rfl

/-- R61: a slot that becomes DONE is no longer IN_USE. -/
theorem reuse_markDone (h : MemoryLegal plan) {d : Descriptor} (hd : (slotAt plan k).contents = some d)
    (code : CompletionCode) : Reuse plan (markDone plan k code) (fun j => InUse plan j ∧ j ≠ k) :=
  (reuse_setSlot h hd .done (some code) (by decide) (by simp)).congr fun j => by
    by_cases hj : j = k <;> simp [hj]

/-- R61: a slot that becomes IN_USE. -/
theorem reuse_markInUse (h : MemoryLegal plan) {d : Descriptor} (hd : (slotAt plan k).contents = some d) :
    Reuse plan (markInUse plan k) (fun j => InUse plan j ∨ j = k) :=
  (reuse_setSlot h hd .inUse none (by decide) (by decide)).congr fun j => by
    by_cases hj : j = k <;> simp [hj]

/-! ### The fetch (R76 to R80) -/

theorem isOwnKind_not_isFlow {i : ContextId} {d : Descriptor} (h : isOwnKind i d = true) : isFlow d = false := by
  cases d with
  | segmentH s => rfl
  | segmentV s => rfl
  | _ => cases i <;> cases h

/-- The slots IN_USE hold no flow descriptor. -/
def NoFlowInUse (plan : Table Slot) : Prop :=
  ∀ k d, InUse plan k → (slotAt plan k).contents = some d → isFlow d = false

/-- The slot that a fetch makes IN_USE. -/
def FetchEnd.slot? : FetchEnd → Option Nat
  | .reached k _ => some k
  | .died _ _ => none

/-- R77 to R79: a flow descriptor that is executed leaves the slots IN_USE as they were, and the stack and the repeat remaining
within their bounds. -/
theorem executeFlow_reuse {w w' : Walk} {next : Nat} {d : Descriptor} (h : MemoryLegal w.plan) (hflow : isFlow d = true)
    (hfree : ¬ InUse w.plan k) (hd : (slotAt w.plan k).contents = some d) (hstack : w.stack.length ≤ 4)
    (hrep : w.repeatLeft ≤ 255) (hx : executeFlow w k d = (w', .ok next)) :
    Reuse w.plan w'.plan (InUse w.plan) ∧ w'.stack.length ≤ 4 ∧ w'.repeatLeft ≤ 255 := by
  have done : ∀ code, Reuse w.plan (markDone w.plan k code) (InUse w.plan) := fun code =>
    (reuse_markDone h hd code).congr fun j => ⟨fun hj => hj.1, fun hj => ⟨hj, fun he => hfree (he ▸ hj)⟩⟩
  have hdesc := (h.2.2 k).2 d hd
  cases d with
  | segmentH s => cases hflow
  | segmentV s => cases hflow
  | branch target => cases hx; exact ⟨done _, hstack, hrep⟩
  | call target link =>
    simp only [executeFlow] at hx
    split at hx
    · cases hx; exact ⟨done _, by simp only [List.length_append, List.length_singleton]; omega, hrep⟩
    · cases hx
  | ret =>
    simp only [executeFlow] at hx
    split at hx
    · cases hx
    · cases hx; exact ⟨done _, by simp only [List.length_dropLast]; omega, hrep⟩
  | repeatRun count link =>
    simp only [executeFlow] at hx
    split at hx
    · cases hx; exact ⟨done _, hstack, Nat.zero_le _⟩
    · cases hx; exact ⟨done _, hstack, hdesc.2⟩

theorem executeFlow_error {w w' : Walk} {code : DeadCode} {d : Descriptor} (hx : executeFlow w k d = (w', .error code)) :
    w' = w := by
  cases d with
  | branch target => cases hx
  | call target link => simp only [executeFlow] at hx; split at hx <;> cases hx; rfl
  | ret => simp only [executeFlow] at hx; split at hx <;> cases hx; rfl
  | repeatRun count link => simp only [executeFlow] at hx; split at hx <;> cases hx
  | _ => cases hx; rfl

/-- R76, R80: a fetch makes no slot IN_USE but the one it ends at, which then holds a segment of the own kind; and the stack and
the repeat remaining stay within their bounds. -/
theorem fetchFrom_reuse (i : ContextId) (left : Nat) (w : Walk) (entry : Nat) (h : MemoryLegal w.plan)
    (hno : NoFlowInUse w.plan) (hstack : w.stack.length ≤ 4) (hrep : w.repeatLeft ≤ 255) {w' : Walk} {e : FetchEnd}
    (hx : fetchFrom i left w entry = (w', e)) :
    Reuse w.plan w'.plan (fun j => InUse w.plan j ∨ e.slot? = some j) ∧ w'.stack.length ≤ 4 ∧ w'.repeatLeft ≤ 255 ∧
      ∀ k d, e = .reached k d → (slotAt w.plan k).contents = some d ∧ isOwnKind i d = true := by
  have died : ∀ code k, Reuse w.plan w.plan (fun j => InUse w.plan j ∨ (FetchEnd.died code k).slot? = some j) := fun _ _ =>
    (Reuse.refl h).congr fun j => by simp [FetchEnd.slot?]
  induction left generalizing w entry with
  | zero =>
    unfold fetchFrom at hx
    split at hx
    · cases hx; exact ⟨died _ _, hstack, hrep, by simp⟩
    · next d hd =>
      split at hx
      · cases hx; exact ⟨died _ _, hstack, hrep, by simp⟩
      · split at hx
        · next hown =>
          cases hx
          exact ⟨(reuse_markInUse h hd).congr fun j => by simp [FetchEnd.slot?, eq_comm], hstack, hrep,
            fun k d' he => by cases he; exact ⟨hd, hown⟩⟩
        · cases hx; exact ⟨died _ _, hstack, hrep, by simp⟩
  | succ left ih =>
    unfold fetchFrom at hx
    split at hx
    · cases hx; exact ⟨died _ _, hstack, hrep, by simp⟩
    · next d hd =>
      split at hx
      · next hflow =>
        simp only at hx
        split at hx
        · next w1 code hw1 =>
          cases hx
          rw [executeFlow_error hw1]
          exact ⟨died _ _, hstack, hrep, by simp⟩
        · next w1 next hw1 =>
          have hfree : ¬ InUse w.plan entry := fun hu => by rw [hno _ _ hu hd] at hflow; cases hflow
          obtain ⟨hre, hs1, hr1⟩ := executeFlow_reuse h hflow hfree hd hstack hrep hw1
          have hno1 : NoFlowInUse w1.plan := fun k d' hu hd' =>
            hno k d' ((hre.inUse k).1 hu) ((hre.contents k).symm.trans hd')
          obtain ⟨hre', hs', hr', hend⟩ := ih w1 next hre.memory hno1 hs1 hr1 hx fun _ _ =>
            (Reuse.refl hre.memory).congr fun j => by simp [FetchEnd.slot?]
          exact ⟨(hre.trans hre').congr fun j => or_congr_left (hre.inUse j), hs', hr',
            fun k d' he => by rw [← hre.contents k]; exact hend k d' he⟩
      · split at hx
        · next hown =>
          cases hx
          exact ⟨(reuse_markInUse h hd).congr fun j => by simp [FetchEnd.slot?, eq_comm], hstack, hrep,
            fun k d' he => by cases he; exact ⟨hd, hown⟩⟩
        · cases hx; exact ⟨died _ _, hstack, hrep, by simp⟩
end

/-! ### What keeps the plan -/

section
variable {p q : Part} {i : ContextId}

/-- The fields of the plan. -/
def Part.plans (p : Part) : Table Slot × Context × Context := (p.plan, p.ctxH, p.ctxV)

theorem plans_of_ground (h : q.ground = p.ground) : q.plans = p.plans := by
  simp only [Part.ground, Part.plans, Ground.mk.injEq, Prod.mk.injEq] at *; simp [h]

theorem plans_of_offScanner (h : q.offScanner = p.offScanner) : q.plans = p.plans := by
  simp only [Part.offScanner, Part.plans, Prod.mk.injEq] at *; simp [h]

theorem ctx_of_plans (h : q.plans = p.plans) (i : ContextId) : q.ctx i = p.ctx i := by
  simp only [Part.plans, Prod.mk.injEq] at h
  cases i
  · exact h.2.1
  · exact h.2.2

theorem plan_of_plans (h : q.plans = p.plans) : q.plan = p.plan := congrArg Prod.fst h

theorem handPlanState_plans (p : Part) (i : ContextId) (slot : Option Nat) : (handPlanState p i slot).plans = p.plans :=
  plans_of_ground (handEvent_ground _ _)

theorem setCtx_ctx_other {j : ContextId} (c : Context) (h : j ≠ i) : (p.setCtx i c).ctx j = p.ctx j := by
  cases i <;> cases j <;> first | rfl | exact absurd rfl h

@[simp] theorem setWalk_plan (c : Context) (w : Walk) : (p.setWalk i c w).plan = w.plan := by simp [Part.setWalk]

@[simp] theorem setWalk_ctx (c : Context) (w : Walk) :
    (p.setWalk i c w).ctx i = { c with stack := w.stack, repeatLeft := w.repeatLeft } := by simp [Part.setWalk]

theorem setWalk_ctx_other {j : ContextId} (c : Context) (w : Walk) (h : j ≠ i) : (p.setWalk i c w).ctx j = p.ctx j := by
  cases i <;> cases j <;> first | rfl | exact absurd rfl h
theorem handPlanState_ctx (i j : ContextId) (slot : Option Nat) : (handPlanState p i slot).ctx j = p.ctx j :=
  ctx_of_plans (handPlanState_plans p i slot) j

theorem contextDies_ctx (c : Context) (w : Walk) (code : DeadCode) (slot : Nat) (held : Option SegmentRecord) :
    ((contextDies p i c w code slot held).ctx i).state = .dead := by
  unfold contextDies; rw [handPlanState_ctx, setWalk_ctx]

theorem contextDies_ctx_other {j : ContextId} (c : Context) (w : Walk) (code : DeadCode) (slot : Nat)
    (held : Option SegmentRecord) (h : j ≠ i) : (contextDies p i c w code slot held).ctx j = p.ctx j := by
  unfold contextDies; rw [handPlanState_ctx, setWalk_ctx_other _ _ h]

end

end Sys2Proof.Machine

namespace Sys2Proof.Safety
open Sys2Proof Sys2Proof.Machine

/-! ### The contexts over plan memory -/

/-- A slot is held by a context other than i. -/
def HeldElsewhere (p : Part) (i : ContextId) (k : Nat) : Prop := ∃ j, j ≠ i ∧ Holds (p.ctx j) k

theorem forall_contextId {P : ContextId → Prop} : (∀ i, P i) ↔ P .h ∧ P .v :=
  ⟨fun h => ⟨h _, h _⟩, fun h i => by cases i; exacts [h.1, h.2]⟩

theorem exists_contextId {P : ContextId → Prop} : (∃ i, P i) ↔ P .h ∨ P .v := by
  constructor
  · rintro ⟨i, h⟩; cases i; exacts [.inl h, .inr h]
  · rintro (h | h); exacts [⟨_, h⟩, ⟨_, h⟩]

/-- R56, R61, R70: the law of plan memory and the contexts, by context. -/
theorem planLegal_iff (p : Part) : PlanLegal p ↔ MemoryLegal p.plan ∧ (∀ i, ContextLegal i (p.ctx i)) ∧
    (∀ k, InUse p.plan k ↔ ∃ i, Holds (p.ctx i) k) ∧ ∀ i k, Holds (p.ctx i) k → OwnAt p.plan i k := by
  simp only [forall_contextId, exists_contextId]
  exact ⟨fun ⟨h1, h2, h3, h4, h5, h6, h7, h8⟩ => ⟨⟨h1, h2, h3⟩, ⟨h4, h5⟩, h6, h7, h8⟩,
    fun ⟨⟨h1, h2, h3⟩, ⟨h4, h5⟩, h6, h7, h8⟩ => ⟨h1, h2, h3, h4, h5, h6, h7, h8⟩⟩

theorem isOwnKind_unique {i j : ContextId} {d : Descriptor} (hi : isOwnKind i d = true) (hj : isOwnKind j d = true) :
    i = j := by
  cases d with
  | segmentH s =>
    cases i <;> cases j <;> simp_all [isOwnKind]
  | segmentV s =>
    cases i <;> cases j <;> simp_all [isOwnKind]
  | _ => cases i <;> cases hi

section
variable {p q : Part} {i : ContextId}

theorem PlanLegal.memory (h : PlanLegal p) : MemoryLegal p.plan := ((planLegal_iff p).1 h).1
theorem PlanLegal.context (h : PlanLegal p) (i : ContextId) : ContextLegal i (p.ctx i) := ((planLegal_iff p).1 h).2.1 i
theorem PlanLegal.inUse_iff (h : PlanLegal p) (k : Nat) : InUse p.plan k ↔ ∃ i, Holds (p.ctx i) k :=
  ((planLegal_iff p).1 h).2.2.1 k
theorem PlanLegal.ownAt (h : PlanLegal p) {k : Nat} (hk : Holds (p.ctx i) k) : OwnAt p.plan i k :=
  ((planLegal_iff p).1 h).2.2.2 i k hk

theorem PlanLegal.inUse_split (h : PlanLegal p) (i : ContextId) (k : Nat) :
    InUse p.plan k ↔ Holds (p.ctx i) k ∨ HeldElsewhere p i k := by
  rw [h.inUse_iff]
  constructor
  · rintro ⟨j, hj⟩
    by_cases hji : j = i
    · exact .inl (hji ▸ hj)
    · exact .inr ⟨j, hji, hj⟩
  · rintro (hk | ⟨j, -, hj⟩)
    · exact ⟨i, hk⟩
    · exact ⟨j, hj⟩

/-- No slot is held by both contexts, since each holds segments of its own kind. -/
theorem PlanLegal.not_heldElsewhere (h : PlanLegal p) {k : Nat} (hk : Holds (p.ctx i) k) : ¬ HeldElsewhere p i k := by
  rintro ⟨j, hne, hj⟩
  obtain ⟨d, hd, hi⟩ := h.ownAt hk
  obtain ⟨d', hd', hj'⟩ := h.ownAt hj
  rw [hd] at hd'
  cases hd'
  exact hne (isOwnKind_unique hj' hi)

theorem PlanLegal.noFlowInUse (h : PlanLegal p) : NoFlowInUse p.plan := by
  intro k d hu hd
  obtain ⟨j, hj⟩ := (h.inUse_iff k).1 hu
  obtain ⟨d', hd', hown⟩ := h.ownAt hj
  rw [hd] at hd'
  cases hd'
  exact isOwnKind_not_isFlow hown

/-- What a context's operation must leave behind for plan memory to stay legal. -/
theorem PlanLegal.of_reuse (h : PlanLegal p)
    (hre : Reuse p.plan q.plan (fun k => Holds (q.ctx i) k ∨ HeldElsewhere p i k))
    (hother : ∀ j, j ≠ i → q.ctx j = p.ctx j) (hctx : ContextLegal i (q.ctx i))
    (hown : ∀ k, Holds (q.ctx i) k → OwnAt p.plan i k) : PlanLegal q := by
  refine (planLegal_iff q).2 ⟨hre.memory, fun j => ?_, fun k => ?_, fun j k hk => ?_⟩
  · by_cases hj : j = i
    · exact hj ▸ hctx
    · rw [hother j hj]; exact h.context j
  · rw [hre.inUse k]
    constructor
    · rintro (hk | ⟨j, hj, hk⟩)
      · exact ⟨i, hk⟩
      · exact ⟨j, by rw [hother j hj]; exact hk⟩
    · rintro ⟨j, hk⟩
      by_cases hj : j = i
      · exact .inl (hj ▸ hk)
      · exact .inr ⟨j, hj, by rw [← hother j hj]; exact hk⟩
  · rw [hre.ownAt]
    by_cases hj : j = i
    · subst hj; exact hown k hk
    · rw [hother j hj] at hk; exact h.ownAt hk

theorem PlanLegal.of_plans (hp : PlanLegal p) (h : q.plans = p.plans) : PlanLegal q := by
  rw [planLegal_iff] at hp ⊢
  simp only [plan_of_plans h, ctx_of_plans h]
  exact hp

theorem handPlanState_planLegal (slot : Option Nat) (hp : PlanLegal p) : PlanLegal (handPlanState p i slot) :=
  hp.of_plans (handPlanState_plans p i slot)

end

/-! ### Holding -/

/-- The slots of a current and a previous segment. -/
theorem holds_iff (c : Context) (k : Nat) :
    Holds c k ↔ c.current.map (·.slot) = some k ∨ c.previous.map (·.slot) = some k := by
  simp only [Holds, Option.map_eq_some_iff]

/-- A shadow copy of the own kind with a legal length. -/
def ShadowLegal (i : ContextId) (r : SegmentRecord) : Prop := isOwnKind i r.shadow = true ∧ DescriptorLegal r.shadow

section
variable {p : Part} {i : ContextId}

/-- R76: what a fetch of a context leaves of plan memory, when the slots IN_USE before it are those of `use`. -/
theorem fetch_reuse {q : Part} {use : Nat → Prop} {entry : Nat} {w : Walk} {e : FetchEnd} (hp : PlanLegal p)
    (hre : Reuse p.plan q.plan use) (hsub : ∀ k, use k → InUse p.plan k) (hx : fetch i (q.walk (p.ctx i)) entry = (w, e)) :
    Reuse p.plan w.plan (fun j => use j ∨ e.slot? = some j) ∧ w.stack.length ≤ 4 ∧ w.repeatLeft ≤ 255 ∧
      ∀ k d, e = .reached k d → OwnAt p.plan i k ∧ isOwnKind i d = true ∧ DescriptorLegal d := by
  have hno : NoFlowInUse q.plan := fun k d hu hd =>
    hp.noFlowInUse k d (hsub k ((hre.inUse k).1 hu)) ((hre.contents k).symm.trans hd)
  obtain ⟨-, -, -, -, -, -, hstack, hrep, -⟩ := hp.context i
  obtain ⟨hre', hs, hr, hend⟩ := fetchFrom_reuse i 16 (q.walk (p.ctx i)) entry hre.memory hno hstack hrep hx
  refine ⟨(hre.trans hre').congr fun j => or_congr_left (hre.inUse j), hs, hr, fun k d he => ?_⟩
  obtain ⟨hd, hown⟩ := hend k d he
  have hd' : (slotAt p.plan k).contents = some d := (hre.contents k).symm.trans hd
  exact ⟨⟨d, hd', hown⟩, hown, (hp.memory.2.2 k).2 d hd'⟩

/-- R82: the old previous slot is given up unless the current segment still holds it, so of the slots of the context only the
current one stays IN_USE. -/
theorem giveUpPrevious_reuse {r : SegmentRecord} (hp : PlanLegal p) (hcur : (p.ctx i).current = some r) :
    Reuse p.plan (giveUpPrevious p.plan (p.ctx i).previous r.slot) (fun k => k = r.slot ∨ HeldElsewhere p i k) := by
  have hholds : ∀ k, Holds (p.ctx i) k ↔ k = r.slot ∨ (p.ctx i).previous.map (·.slot) = some k := fun k => by
    rw [holds_iff, hcur]; simp [eq_comm]
  have hsplit : ∀ k, InUse p.plan k ↔
      (k = r.slot ∨ (p.ctx i).previous.map (·.slot) = some k) ∨ HeldElsewhere p i k := fun k => by
    rw [hp.inUse_split i k, hholds]
  unfold giveUpPrevious
  split
  · next hprev => exact (Reuse.refl hp.memory).congr fun k => by rw [hsplit]; simp [hprev]
  · next old hprev =>
    have hold : Holds (p.ctx i) old.slot := (holds_iff _ _).2 (.inr (by rw [hprev]; rfl))
    split
    · next heq => exact (Reuse.refl hp.memory).congr fun k => by rw [hsplit]; simp [hprev, heq, eq_comm]
    · next hne =>
      obtain ⟨d, hd, -⟩ := hp.ownAt hold
      refine (reuse_markDone hp.memory hd _).congr fun k => ?_
      rw [hsplit]
      constructor
      · rintro ⟨(hk | hk) | hk, hkne⟩
        · exact .inl hk
        · rw [hprev] at hk; exact absurd (Option.some.inj hk).symm hkne
        · exact .inr hk
      · rintro (hk | hk)
        · exact ⟨.inl (.inl hk), fun he => hne (he.symm.trans hk)⟩
        · exact ⟨.inr hk, fun he => hp.not_heldElsewhere hold (he ▸ hk)⟩

/-- The parts of a context that is RUNNING. -/
theorem contextLegal_running {c : Context} {r : SegmentRecord} (hst : c.state = .running) (hdead : c.dead = none)
    (harmed : c.armed = none) (hcur : c.current = some r) (hstack : c.stack.length ≤ 4) (hrep : c.repeatLeft ≤ 255)
    (hsh : ∀ r, c.current = some r ∨ c.previous = some r → ShadowLegal i r) : ContextLegal i c :=
  ⟨by simp [harmed, hst], by simp [hdead, hst], by simp [hst], fun _ => by simp [hcur], by simp [hst], by simp [hst], hstack,
    hrep, hsh⟩

/-- R70: only a DEAD context has a dead code, and only an ARMED one a start. -/
theorem ContextLegal.dead_armed_none {c : Context} (h : ContextLegal i c) (hdead : c.state ≠ .dead)
    (harmed : c.state ≠ .armed) : c.dead = none ∧ c.armed = none := by
  rw [← Option.not_isSome_iff_eq_none, ← Option.not_isSome_iff_eq_none, h.1, h.2.1]
  exact ⟨hdead, harmed⟩

/-- The parts of a context that is DEAD. -/
theorem contextLegal_dead {c : Context} {w : Walk} {dead : DeadCode × Nat} {held : Option SegmentRecord}
    (hstack : w.stack.length ≤ 4) (hrep : w.repeatLeft ≤ 255) (hsh : ∀ r, held = some r → ShadowLegal i r) :
    ContextLegal i { ({ c with state := .dead, dead := some dead, armed := none, current := held, previous := held } : Context)
      with stack := w.stack, repeatLeft := w.repeatLeft } :=
  ⟨by simp, by simp, by simp, by simp, by simp, fun _ => rfl, hstack, hrep, fun r hr => hsh r (hr.elim id id)⟩

/-- R81: a context that dies keeps a segment in both roles, or none. -/
theorem contextDies_planLegal {q : Part} {w : Walk} {code : DeadCode} {slot : Nat} {held : Option SegmentRecord} (c : Context)
    (hp : PlanLegal p) (hre : Reuse p.plan w.plan (fun k => held.map (·.slot) = some k ∨ HeldElsewhere p i k))
    (hother : ∀ j, j ≠ i → q.ctx j = p.ctx j) (hstack : w.stack.length ≤ 4) (hrep : w.repeatLeft ≤ 255)
    (hheld : ∀ r, held = some r → Holds (p.ctx i) r.slot ∧ ShadowLegal i r) :
    PlanLegal (contextDies q i c w code slot held) := by
  refine handPlanState_planLegal _ (hp.of_reuse (i := i) ?_ (fun j hj => ?_) ?_ fun k hk => ?_)
  · rw [setWalk_plan, setWalk_ctx]
    exact hre.congr fun k => by rw [holds_iff]; simp
  · rw [setWalk_ctx_other _ _ hj, hother j hj]
  · rw [setWalk_ctx]
    exact contextLegal_dead hstack hrep fun r hr => (hheld r hr).2
  · rw [setWalk_ctx, holds_iff] at hk
    obtain ⟨r, hr, rfl⟩ := Option.map_eq_some_iff.1 (hk.elim id id)
    exact hp.ownAt (hheld r hr).1

/-- R82, R83: one segment end keeps plan memory legal. -/
theorem segmentEnd_planLegal {r : SegmentRecord} (hp : PlanLegal p) (hst : (p.ctx i).state = .running)
    (hcur : (p.ctx i).current = some r) : PlanLegal (segmentEnd p i r) := by
  obtain ⟨-, -, -, -, -, -, hstack, hrep, hsh⟩ := hp.context i
  obtain ⟨hdead, harmed⟩ := (hp.context i).dead_armed_none (by simp [hst]) (by simp [hst])
  have hr : Holds (p.ctx i) r.slot := .inl ⟨r, hcur, rfl⟩
  have hshr : ShadowLegal i r := hsh r (.inl hcur)
  have hgive := giveUpPrevious_reuse hp hcur
  have hsub : ∀ k, k = r.slot ∨ HeldElsewhere p i k → InUse p.plan k := fun k hk =>
    (hp.inUse_split i k).2 (hk.imp (fun (h : k = r.slot) => h ▸ hr) id)
  unfold segmentEnd
  simp only
  split
  · refine hp.of_reuse (i := i) ?_ (fun j hj => by rw [setCtx_ctx_other _ hj]; cases j <;> rfl) ?_ fun k hk => ?_
    · rw [Part.setCtx_plan, Part.setCtx_ctx_self]
      exact hgive.congr fun k => by rw [holds_iff]; simp [eq_comm]
    · rw [Part.setCtx_ctx_self]
      exact contextLegal_running hst hdead harmed rfl hstack (by show _ - 1 ≤ 255; omega) fun x hx => by
        rcases hx with hx | hx <;> cases hx <;> exact hshr
    · rw [Part.setCtx_ctx_self, holds_iff] at hk
      obtain rfl : r.slot = k := by simpa using hk
      exact hp.ownAt hr
  · split
    · refine handPlanState_planLegal _ (hp.of_reuse (i := i) ?_
        (fun j hj => by rw [setCtx_ctx_other _ hj]; cases j <;> rfl) ?_ fun k hk => ?_)
      · rw [Part.setCtx_plan, Part.setCtx_ctx_self]
        exact hgive.congr fun k => by rw [holds_iff]; simp [eq_comm]
      · rw [Part.setCtx_ctx_self]
        exact ⟨by simp [harmed], by simp [hdead], by simp, by simp, fun _ => ⟨rfl, rfl⟩, by simp, hstack, hrep,
          fun x hx => by rcases hx with hx | hx <;> cases hx <;> exact hshr⟩
      · rw [Part.setCtx_ctx_self, holds_iff] at hk
        obtain rfl : r.slot = k := by simpa using hk
        exact hp.ownAt hr
    · split
      · next w k shadow hw =>
        obtain ⟨hre, hs, hrl, hend⟩ := fetch_reuse (q := { p with plan := _ }) hp hgive hsub hw
        obtain ⟨hown, hkind, hlen⟩ := hend k shadow rfl
        refine hp.of_reuse (i := i) ?_ (fun j hj => by rw [setWalk_ctx_other _ _ hj]; cases j <;> rfl) ?_ fun j hj => ?_
        · rw [setWalk_plan, setWalk_ctx]
          refine hre.congr fun j => ?_
          rw [holds_iff]
          simp only [FetchEnd.slot?, Option.map_some, Option.some.injEq, eq_comm (a := j)]
          tauto
        · rw [setWalk_ctx]
          exact contextLegal_running hst hdead harmed rfl hs hrl fun x hx => by
            rcases hx with hx | hx <;> cases hx
            · exact ⟨hkind, hlen⟩
            · exact hshr
        · rw [setWalk_ctx, holds_iff] at hj
          rcases hj with hj | hj <;> cases hj
          · exact hown
          · exact hp.ownAt hr
      · next w code k hw =>
        obtain ⟨hre, hs, hrl, -⟩ := fetch_reuse (q := { p with plan := _ }) hp hgive hsub hw
        refine contextDies_planLegal _ hp (hre.congr fun j => ?_) (fun j _ => by cases j <;> rfl) hs hrl
          fun x hx => by cases hx; exact ⟨hr, hshr⟩
        simp [FetchEnd.slot?, eq_comm]

/-- R84: the catch-up keeps plan memory legal. -/
theorem catchUpBy_planLegal (i : ContextId) (n : Nat) {p : Part} (hp : PlanLegal p) : PlanLegal (catchUpBy i n p) := by
  induction n generalizing p with
  | zero => exact hp
  | succ n ih =>
    unfold catchUpBy
    split
    · next r hst hcur =>
      split
      · exact ih (segmentEnd_planLegal hp hst hcur)
      · exact hp
    · exact hp

theorem catchUp_planLegal (hp : PlanLegal p) : PlanLegal (catchUp p i) := by
  unfold catchUp
  split
  · exact hp
  · exact catchUpBy_planLegal i _ hp

/-- What becomes of the part when a context comes to run on a segment and catches up, or dies. -/
inductive RunsOrDies (p : Part) (i : ContextId) : Part → Prop where
  | runs (q : Part) (slot : Option Nat) : PlanLegal q → (q.ctx i).state = .running → q.offPlan = p.offPlan →
      (∀ j, j ≠ i → q.ctx j = p.ctx j) → RunsOrDies p i (catchUp (handPlanState q i slot) i)
  | dies (q : Part) : PlanLegal q → (q.ctx i).state = .dead → q.offPlan = p.offPlan →
      (∀ j, j ≠ i → q.ctx j = p.ctx j) → RunsOrDies p i q

theorem RunsOrDies.planLegal {q : Part} (h : RunsOrDies p i q) : PlanLegal q := by
  cases h with
  | runs q slot hq _ _ _ => exact catchUp_planLegal (handPlanState_planLegal slot hq)
  | dies _ hq _ _ _ => exact hq

/-- R74, R75: a context that holds no segment starts. -/
theorem startContext_runsOrDies (first : Nat) (start : Int) (hp : PlanLegal p)
    (hst : (p.ctx i).state = .stopped ∨ (p.ctx i).state = .armed) : RunsOrDies p i (startContext p i first start) := by
  obtain ⟨-, hdead, hnone, -⟩ := hp.context i
  obtain ⟨hcur, hprev⟩ := hnone hst
  have hd : (p.ctx i).dead = none := by
    rw [← Option.not_isSome_iff_eq_none, hdead]
    rcases hst with h | h <;> simp [h]
  have hrefl : Reuse p.plan p.plan (HeldElsewhere p i) := (Reuse.refl hp.memory).congr fun k => by
    rw [hp.inUse_split i, holds_iff, hcur, hprev]; simp
  have hsub : ∀ k, HeldElsewhere p i k → InUse p.plan k := fun k hk => (hp.inUse_split i k).2 (.inr hk)
  unfold startContext
  simp only
  split
  · next w k shadow hw =>
    obtain ⟨hre, hs, hrl, hend⟩ := fetch_reuse hp hrefl hsub hw
    obtain ⟨hown, hkind, hlen⟩ := hend k shadow rfl
    refine .runs _ _ (hp.of_reuse (i := i) ?_ (fun j hj => setWalk_ctx_other _ _ hj) ?_ fun j hj => ?_) (by rw [setWalk_ctx])
      (setWalk_offPlan _ _ _ _) fun j hj => setWalk_ctx_other _ _ hj
    · rw [setWalk_plan, setWalk_ctx]
      exact hre.congr fun j => by rw [holds_iff]; simp [FetchEnd.slot?, or_comm]
    · rw [setWalk_ctx]
      exact contextLegal_running rfl hd rfl rfl hs hrl fun x hx => by
        rcases hx with hx | hx <;> cases hx
        exact ⟨hkind, hlen⟩
    · rw [setWalk_ctx, holds_iff] at hj
      rcases hj with hj | hj <;> cases hj
      exact hown
  · next w code k hw =>
    obtain ⟨hre, hs, hrl, -⟩ := fetch_reuse hp hrefl hsub hw
    exact .dies _ (contextDies_planLegal _ hp (hre.congr fun j => by simp [FetchEnd.slot?]) (fun _ _ => rfl) hs hrl (by simp))
      (contextDies_ctx _ _ _ _ _) (contextDies_offPlan _ _ _ _ _ _ _) fun j hj => contextDies_ctx_other _ _ _ _ _ hj

/-- R75, R82: an advance keeps plan memory legal. -/
theorem contextAdvance_planLegal (hp : PlanLegal p) : PlanLegal (contextAdvance i p) := by
  unfold contextAdvance
  simp only
  split
  · next hst =>
    split
    · exact hp
    · split
      · exact (startContext_runsOrDies _ _ hp (.inr hst)).planLegal
      · exact hp
  · exact catchUp_planLegal hp
  · exact hp

/-- R87: PLAN WAKE on a STARVED context. -/
theorem wakeContext_cases (hp : PlanLegal p) (hst : (p.ctx i).state = .starved) :
    wakeContext p i = p ∨ RunsOrDies p i (wakeContext p i) := by
  obtain ⟨-, -, -, -, hstarved, -, -, -, hsh⟩ := hp.context i
  have hprev := (hstarved hst).2
  obtain ⟨hdead, harmed⟩ := (hp.context i).dead_armed_none (by simp [hst]) (by simp [hst])
  unfold wakeContext
  simp only
  split
  · exact .inl rfl
  · next r hcur =>
    have hr : Holds (p.ctx i) r.slot := .inl ⟨r, hcur, rfl⟩
    have hshr : ShadowLegal i r := hsh r (.inl hcur)
    have hrefl : Reuse p.plan p.plan (fun k => k = r.slot ∨ HeldElsewhere p i k) := (Reuse.refl hp.memory).congr fun k => by
      rw [hp.inUse_split i, holds_iff, hprev, hcur]; simp [eq_comm]
    have hsub : ∀ k, k = r.slot ∨ HeldElsewhere p i k → InUse p.plan k := fun k hk =>
      (hp.inUse_split i k).2 (hk.imp (fun (h : k = r.slot) => h ▸ hr) id)
    split
    · exact .inl rfl
    · right
      split
      · next w k shadow hw =>
        obtain ⟨hre, hs, hrl, hend⟩ := fetch_reuse hp hrefl hsub hw
        obtain ⟨hown, hkind, hlen⟩ := hend k shadow rfl
        refine .runs _ _ (hp.of_reuse (i := i) ?_ (fun j hj => setWalk_ctx_other _ _ hj) ?_ fun j hj => ?_)
          (by rw [setWalk_ctx]) (setWalk_offPlan _ _ _ _) fun j hj => setWalk_ctx_other _ _ hj
        · rw [setWalk_plan, setWalk_ctx]
          refine hre.congr fun j => ?_
          rw [holds_iff]
          simp only [FetchEnd.slot?, Option.map_some, Option.some.injEq, eq_comm (a := j)]
          tauto
        · rw [setWalk_ctx]
          exact contextLegal_running rfl hdead harmed rfl hs hrl fun x hx => by
            rcases hx with hx | hx <;> cases hx
            · exact ⟨hkind, hlen⟩
            · exact hshr
        · rw [setWalk_ctx, holds_iff] at hj
          rcases hj with hj | hj <;> cases hj
          · exact hown
          · exact hp.ownAt hr
      · next w code k hw =>
        obtain ⟨hre, hs, hrl, -⟩ := fetch_reuse hp hrefl hsub hw
        exact .dies _ (contextDies_planLegal _ hp (hre.congr fun j => by simp [FetchEnd.slot?, eq_comm]) (fun _ _ => rfl) hs
          hrl fun x hx => by cases hx; exact ⟨hr, hshr⟩) (contextDies_ctx _ _ _ _ _) (contextDies_offPlan _ _ _ _ _ _ _)
          fun j hj => contextDies_ctx_other _ _ _ _ _ hj

theorem wakeContext_planLegal (hp : PlanLegal p) (hst : (p.ctx i).state = .starved) : PlanLegal (wakeContext p i) := by
  rcases wakeContext_cases hp hst with h | h
  · rw [h]; exact hp
  · exact h.planLegal

theorem contextLegal_afterReset (i : ContextId) : ContextLegal i .afterReset :=
  ⟨by decide, by decide, fun _ => ⟨rfl, rfl⟩, by decide, by decide, by decide, by decide, by decide, fun r hr => by
    rcases hr with hr | hr <;> cases hr⟩

theorem cutSegment_reuse {plan : Table Slot} {r : Option SegmentRecord} (h : MemoryLegal plan)
    (hd : ∀ x, r = some x → ∃ d, (slotAt plan x.slot).contents = some d) :
    Reuse plan (cutSegment plan r) (fun k => InUse plan k ∧ r.map (·.slot) ≠ some k) := by
  unfold cutSegment
  split
  · exact (Reuse.refl h).congr fun k => by simp
  · next x =>
    obtain ⟨d, hd⟩ := hd x rfl
    exact (reuse_markDone h hd _).congr fun k => by simp [eq_comm]

/-- R88: PLAN STOP cuts the slots that the context holds. -/
theorem stopContext_planLegal (i : ContextId) (hp : PlanLegal p) : PlanLegal (stopContext p i) := by
  have hcur : ∀ x, (p.ctx i).current = some x → Holds (p.ctx i) x.slot := fun x hx => .inl ⟨x, hx, rfl⟩
  have hprev : ∀ x, (p.ctx i).previous = some x → Holds (p.ctx i) x.slot := fun x hx => .inr ⟨x, hx, rfl⟩
  have contents : ∀ {k}, Holds (p.ctx i) k → ∃ d, (slotAt p.plan k).contents = some d := fun hk => by
    obtain ⟨d, hd, -⟩ := hp.ownAt hk
    exact ⟨d, hd⟩
  have hcut := cutSegment_reuse hp.memory fun x hx => contents (hcur x hx)
  have hcut' := hcut.trans (cutSegment_reuse (r := (p.ctx i).previous) hcut.memory fun x hx => by
    rw [hcut.contents]; exact contents (hprev x hx))
  refine handPlanState_planLegal _ (hp.of_reuse (i := i) ?_ (fun j hj => by rw [setCtx_ctx_other _ hj]; cases j <;> rfl) ?_
    fun k hk => ?_)
  · rw [Part.setCtx_plan, Part.setCtx_ctx_self]
    refine hcut'.congr fun k => ?_
    rw [hcut.inUse, hp.inUse_split i, holds_iff, holds_iff]
    constructor
    · rintro ⟨⟨(hk | hk) | hk, h1⟩, h2⟩
      · exact absurd hk h1
      · exact absurd hk h2
      · exact .inr hk
    · rintro (hk | hk)
      · rcases hk with hk | hk <;> cases hk
      · have hno : ¬ Holds (p.ctx i) k := fun h => hp.not_heldElsewhere h hk
        rw [holds_iff, not_or] at hno
        exact ⟨⟨.inr hk, hno.1⟩, hno.2⟩
  · rw [Part.setCtx_ctx_self]; exact contextLegal_afterReset i
  · rw [Part.setCtx_ctx_self] at hk
    rcases hk with ⟨r, hr, -⟩ | ⟨r, hr, -⟩ <;> cases hr

/-- R74, R75: PLAN RUN on a STOPPED context keeps plan memory legal. -/
theorem runContext_planLegal (first : Nat) (start : Option Int) (hp : PlanLegal p) (hst : (p.ctx i).state = .stopped) :
    PlanLegal (runContext p i first start) := by
  unfold runContext
  split
  · exact (startContext_runsOrDies _ _ hp (.inl hst)).planLegal
  · split
    · obtain ⟨-, -, hnone, -, -, -, hstack, hrep, hsh⟩ := hp.context i
      have hd := ((hp.context i).dead_armed_none (by simp [hst]) (by simp [hst])).1
      refine handPlanState_planLegal _ (hp.of_reuse (i := i) ?_ (fun j hj => setCtx_ctx_other _ hj) ?_ fun k hk => ?_)
      · rw [Part.setCtx_plan, Part.setCtx_ctx_self]
        exact (Reuse.refl hp.memory).congr fun k => hp.inUse_split i k
      · rw [Part.setCtx_ctx_self]
        exact ⟨by simp, by simp [hd], fun _ => hnone (.inl hst), by simp, by simp, by simp, hstack, hrep, hsh⟩
      · rw [Part.setCtx_ctx_self] at hk; exact hp.ownAt hk
    · exact (startContext_runsOrDies _ _ hp (.inl hst)).planLegal
end

/-! ### Requests to plan memory (R63 to R67) -/

section
variable {p : Part}

/-- A slot that is replaced by one in the same use, with contents that its holder may have. -/
theorem PlanLegal.withSlot {k : Nat} {v : Slot} (hp : PlanLegal p) (hk : k ≤ 511) (hv : SlotLegal v)
    (hd : ∀ d, v.contents = some d → DescriptorLegal d) (huse : v.state = .inUse ↔ InUse p.plan k)
    (hown : ∀ i, Holds (p.ctx i) k → ∃ d, v.contents = some d ∧ isOwnKind i d = true) : PlanLegal (p.withSlot k v) := by
  have hread : ∀ j, slotAt (setSlot p.plan k v) j = if j = k then v else slotAt p.plan j := fun j =>
    slotAt_setSlot _ _ _ _ hp.memory.1
  refine (planLegal_iff _).2 ⟨hp.memory.setSlot hk hv hd, hp.context, fun j => ?_, fun i j hj => ?_⟩
  · refine Iff.trans ?_ (hp.inUse_iff j)
    show (slotAt (setSlot p.plan k v) j).state = _ ↔ _
    rw [hread]
    split
    · next hj => rw [hj]; exact huse
    · exact Iff.rfl
  · show ∃ d, (slotAt (setSlot p.plan k v) j).contents = some d ∧ _
    rw [hread]
    split
    · next hjk => exact hown i (hjk ▸ hj)
    · exact hp.ownAt hj

theorem relink_legal {l : Option Nat} {d d' : Descriptor} (h : relink l d = some d') :
    (DescriptorLegal d → DescriptorLegal d') ∧ ∀ i, isOwnKind i d' = isOwnKind i d := by
  cases d <;> cases h <;> exact ⟨id, fun i => by cases i <;> rfl⟩

/-- R59: a REPEAT's count is one byte. -/
theorem fieldNat_byte_le (fs : List Byte) (at_ : Nat) : fieldNat fs at_ 1 ≤ 255 := by
  have hlen : (fieldBytes fs at_ 1).length ≤ 1 := List.length_take_le _ _
  have hlt := readNat_lt (fieldBytes fs at_ 1)
  have hpow : 256 ^ (fieldBytes fs at_ 1).length ≤ 256 ^ 1 := Nat.pow_le_pow_right (by decide) hlen
  unfold fieldNat
  omega

/-- R57 to R59, R63: a PLAN WRITE accepts only descriptors within their ranges. -/
theorem descriptorOf_legal {fs : List Byte} {kind : Nat} {d : Descriptor} (h : descriptorOf fs kind = some d) :
    DescriptorLegal d := by
  unfold descriptorOf at h
  split at h
  · obtain ⟨s, hs, rfl⟩ := Option.map_eq_some_iff.1 h
    unfold segmentHOf at hs
    simp only at hs
    split at hs
    · obtain ⟨hc, hs⟩ := Option.ite_none_right_eq_some.1 hs
      cases hs
      simp only [within, Bool.and_eq_true, decide_eq_true_eq] at hc
      exact hc.1.1.1.1.1
    · cases hs
  · obtain ⟨s, hs, rfl⟩ := Option.map_eq_some_iff.1 h
    unfold segmentVOf at hs
    simp only at hs
    split at hs
    · obtain ⟨hc, hs⟩ := Option.ite_none_right_eq_some.1 hs
      cases hs
      simp only [within, Bool.and_eq_true, decide_eq_true_eq] at hc
      exact hc.1.1
    · cases hs
  · simp only at h
    split at h <;> cases h; trivial
  · simp only at h
    split at h
    · split at h <;> cases h; trivial
    · cases h
  · cases h; trivial
  · simp only at h
    split at h
    · split at h
      · next hc => cases h; exact ⟨hc, fieldNat_byte_le fs 3⟩
      · cases h
    · cases h
  · cases h

/-- R67: a slot of the range reads as EMPTY, and no other slot changes. -/
theorem slotAt_clearSlots {plan : Table Slot} (first last k : Nat) (h : Table.wf emptySlot plan = true) :
    slotAt (clearSlots plan first last) k = if first ≤ k ∧ k ≤ last then emptySlot else slotAt plan k := by
  have := Table.read_filter (dflt := emptySlot) (fun n => decide (n < first ∨ last < n)) k h
  unfold slotAt clearSlots
  rw [this]
  by_cases hk : first ≤ k ∧ k ≤ last
  · rw [if_pos hk, if_neg (by simp only [decide_eq_true_eq]; omega)]
  · rw [if_neg hk, if_pos (by simp only [decide_eq_true_eq]; omega)]

/-- R67: no slot of a range without an IN_USE slot is IN_USE. -/
theorem not_inUse_of_rangeInUse {plan : Table Slot} {first last k : Nat} (h : rangeInUse plan first last = false)
    (hk : first ≤ k ∧ k ≤ last) : ¬ InUse plan k := by
  intro hu
  have hne : slotAt plan k ≠ emptySlot := fun he => by unfold InUse at hu; rw [he] at hu; cases hu
  have hmem := Table.read_mem hne
  simp only [rangeInUse, List.any_eq_false] at h
  have := h _ hmem
  simp only [hk, and_self, decide_true, Bool.true_and, decide_eq_true_eq] at this
  exact this hu

theorem emptySlot_legal : SlotLegal emptySlot := by unfold SlotLegal; decide

/-- R67: PLAN CLEAR keeps plan memory legal. -/
theorem clearSlots_planLegal {first last : Nat} (hp : PlanLegal p) (hfree : rangeInUse p.plan first last = false) :
    PlanLegal { p with plan := clearSlots p.plan first last } := by
  have hread := fun k => slotAt_clearSlots (plan := p.plan) first last k hp.memory.1
  have houtside : ∀ k, InUse p.plan k → slotAt (clearSlots p.plan first last) k = slotAt p.plan k := fun k hu => by
    rw [hread, if_neg fun hk => not_inUse_of_rangeInUse hfree hk hu]
  refine (planLegal_iff _).2 ⟨⟨Table.wf_filter _ hp.memory.1, fun x hx => hp.memory.2.1 x (List.mem_filter.1 hx).1,
    fun k => ?_⟩, hp.context, fun k => ?_, fun i k hk => ?_⟩
  · show SlotLegal (slotAt (clearSlots ..) k) ∧ ∀ d, (slotAt (clearSlots ..) k).contents = _ → _
    rw [hread]
    split
    · exact ⟨emptySlot_legal, fun d hd => by cases hd⟩
    · exact hp.memory.2.2 k
  · refine Iff.trans ⟨fun hu => ?_, fun hu => ?_⟩ (hp.inUse_iff k)
    · unfold InUse at hu
      rw [hread] at hu
      split at hu
      · cases hu
      · exact hu
    · show (slotAt (clearSlots p.plan first last) k).state = _
      rw [houtside k hu]; exact hu
  · have hu : InUse p.plan k := (hp.inUse_iff k).2 ⟨i, hk⟩
    obtain ⟨d, hd, hown⟩ := hp.ownAt hk
    exact ⟨d, by rw [← hd, ← houtside k hu], hown⟩

/-- R63, R64: PLAN WRITE keeps plan memory legal. -/
theorem planWrite_planLegal {fs : List Byte} {kind k : Nat} {d : Descriptor} (hp : PlanLegal p) (hk : k ≤ 511)
    (hd : descriptorOf fs kind = some d) (hfree : ¬ InUse p.plan k) :
    PlanLegal (p.withSlot k { state := .loaded, code := none, contents := some d }) :=
  hp.withSlot hk (by simp [SlotLegal]) (fun x hx => by cases hx; exact descriptorOf_legal hd) (by simp [hfree])
    fun i hi => absurd ((hp.inUse_iff k).2 ⟨i, hi⟩) hfree

/-- R65: PLAN LINK keeps plan memory legal. -/
theorem planLink_planLegal {link : Option Nat} {k : Nat} {d : Descriptor} (hp : PlanLegal p) (hk : k ≤ 511)
    (hd : (slotAt p.plan k).contents.bind (relink link) = some d) :
    PlanLegal (p.withSlot k { slotAt p.plan k with contents := some d }) := by
  obtain ⟨old, hold, hrel⟩ := Option.bind_eq_some_iff.1 hd
  obtain ⟨hlegal, hkind⟩ := relink_legal hrel
  have hslot := hp.memory.2.2 k
  refine hp.withSlot hk ⟨hslot.1.1, ?_⟩ (fun x hx => by cases hx; exact hlegal (hslot.2 old hold)) Iff.rfl fun i hi => ?_
  · have := hslot.1.2
    rw [hold] at this
    exact this
  · obtain ⟨x, hx, hown⟩ := hp.ownAt hi
    rw [hold] at hx
    cases hx
    exact ⟨d, rfl, by rw [hkind]; exact hown⟩
end

end Sys2Proof.Safety

namespace Sys2Proof.Machine
open Sys2Proof Sys2Proof.Safety

/-! ### Every command -/

section
variable {p q : Part}

theorem planLegal_afterReset (st : Store) (lines : Lines) : PlanLegal (.afterReset st lines) := by
  refine (planLegal_iff _).2 ⟨⟨rfl, by simp [Part.afterReset], fun k => ⟨emptySlot_legal, fun d hd => by cases hd⟩⟩,
    fun i => by cases i <;> exact contextLegal_afterReset _, fun k => ⟨fun hu => (by cases hu), ?_⟩, ?_⟩
  · rintro ⟨i, hk⟩
    cases i <;> rcases hk with ⟨r, hr, -⟩ | ⟨r, hr, -⟩ <;> cases hr
  · intro i k hk
    cases i <;> rcases hk with ⟨r, hr, -⟩ | ⟨r, hr, -⟩ <;> cases hr

theorem rebase_plans (p : Part) : (rebase p).plans = p.plans := by unfold rebase; split <;> rfl
theorem moveScanFront_plans (p : Part) : (moveScanFront p).plans = p.plans := by unfold moveScanFront; split <;> rfl
theorem passToSupervisor_plans (p : Part) (old new : Int) : (passToSupervisor p old new).plans = p.plans := by
  unfold passToSupervisor; split <;> rfl
theorem passFromPart_plans (p : Part) (old new : Int) : (passFromPart p old new).plans = p.plans := by
  unfold passFromPart; split <;> rfl

theorem writeSetting_plans (p : Part) (id : SettingId) (v : Int) : (writeSetting p id v).plans = p.plans := by
  cases id with
  | pitch => exact rebase_plans p
  | scannerOffset => exact moveScanFront_plans _
  | positionTolerance => exact (plans_of_ground (renewAndStart_ground _)).trans rfl
  | supervisorNode => exact passToSupervisor_plans _ _ _
  | partNode => exact passFromPart_plans _ _ _
  | _ => rfl

theorem adoptSettings_plans (p : Part) (new : Settings) : (adoptSettings p new).plans = p.plans := by
  have rebased : (if new.pitch = p.store.working.pitch then p else rebase p).plans = p.plans := by
    split
    · rfl
    · exact rebase_plans p
  have moved : ∀ q : Part,
      (if new.scannerOffset = p.store.working.scannerOffset then q else moveScanFront q).plans = q.plans := by
    intro q
    split
    · rfl
    · exact moveScanFront_plans q
  have renewed : ∀ q : Part,
      (if new.positionTolerance = p.store.working.positionTolerance then q else renewAndStart q).plans = q.plans := by
    intro q
    split
    · rfl
    · exact plans_of_ground (renewAndStart_ground q)
  refine (renewed _).trans ?_
  rw [passFromPart_plans, passToSupervisor_plans, moved]
  exact rebased

theorem foundPart_plans (p : Part) (r : Request) (rest : List Request) : (foundPart p r rest).plans = p.plans := by
  simp [Part.plans]

/-- What a block decides keeps plan memory legal. -/
theorem Decided.planLegal {r : Request} (h : Decided r p q) (hp : PlanLegal p) : PlanLegal q := by
  cases h with
  | originSet origin d _ _ =>
    exact hp.of_plans ((plans_of_ground ((renewAndStart_ground _).trans (testStopPoint_ground _))).trans rfl)
  | settingWritten id v _ _ _ => exact hp.of_plans (writeSetting_plans p id v)
  | loaded _ _ _ _ => exact hp.of_plans (adoptSettings_plans p _)
  | planWritten kind slot desc hdesc hslot hfree => exact planWrite_planLegal hp hslot hdesc hfree
  | planLinked slot link desc hslot hdesc => exact planLink_planLegal hp hslot hdesc
  | planCleared first last hfree => exact clearSlots_planLegal hp hfree
  | planRun i first start _ hst => exact runContext_planLegal first start hp hst
  | planWoken i hst => exact wakeContext_planLegal hp hst
  | planStopped i _ => exact stopContext_planLegal i hp
  | skipMarked n c => exact hp.of_plans (plans_of_ground (markSkip_ground p n c))
  | skipCleared n => exact hp.of_plans (plans_of_ground ((startEvent_ground _).trans (markSkip_ground p n none)))
  | haltCleared l _ =>
    exact hp.of_plans (plans_of_ground ((startEvent_ground _).trans ((testStopPoint_ground _).trans (rearmLatch_ground p l))))
  | modeSet m => exact hp.of_plans (plans_of_ground (setMode_ground p m))
  | cycleStarted x _ => exact hp.of_plans (plans_of_ground (startCycle_ground p x))
  | cycleStopped => exact hp.of_plans (plans_of_ground (stopCycle_ground p))
  | unitsRaised _ _ => exact hp.of_plans (plans_of_ground (raiseUnits_ground p))
  | clearedInIdle _ => exact hp.of_plans (plans_of_ground (startEvent_ground p))
  | lockoutCleared _ _ _ => exact hp.of_plans ((plans_of_ground (startEvent_ground _)).trans rfl)
  | _ => exact hp

theorem settle_plans (p : Part) : (settle p).plans = p.plans := by
  unfold settle
  simp only
  rw [plans_of_ground (ground_of_offPort (afterHandOn_offPort _))]
  split <;> rfl

theorem sampleEvent_plans (ch : Channel) (level : Int) (p : Part) : (sampleEvent ch level p).plans = p.plans := by
  have taken : (cycleSample ch (driveSample ch (recordSample p ch level))).plans = p.plans :=
    (plans_of_ground ((cycleSample_ground _ _).trans (driveSample_ground _ _))).trans rfl
  unfold sampleEvent
  simp only
  split
  · exact (settle_plans _).trans taken
  · exact taken

/-- R4: of a travel step, only the advance of the contexts changes the plan. -/
theorem blocksTakeStep_planLegal (lines : ScanLines) (dir : Move) (hp : PlanLegal p) :
    PlanLegal (blocksTakeStep lines dir p) := by
  cases dir with
  | backward => exact hp.of_plans (plans_of_ground (renewAndStart_ground p))
  | forward =>
    refine contextAdvance_planLegal (contextAdvance_planLegal (hp.of_plans ?_))
    exact (plans_of_ground ((renewAndStart_ground _).trans (ground_of_offQueue (passRecords_offQueue _)))).trans
      (plans_of_offScanner (scannerAdvance_offScanner p lines))

theorem movePulse_planLegal (lines : ScanLines) (dir : Move) (hp : PlanLegal p) : PlanLegal (movePulse lines dir p) := by
  unfold movePulse
  split
  · exact hp
  · simp only
    split
    · exact blocksTakeStep_planLegal _ _ (hp.of_plans rfl)
    · rcases refusePulse_cases p (decide (maxChainage < chainageOf p.travel p.store.working.pitch (pulsesAfter p dir)))
        with h | ⟨_, _, _, h⟩ <;> rw [h]
      · exact hp
      · exact hp.of_plans ((plans_of_ground (handEvent_ground _ _)).trans rfl)

theorem enterMoving_plans (p : Part) : (enterMoving p).plans = p.plans := by
  unfold enterMoving
  split
  · rfl
  · exact (plans_of_ground (cycleMoving_ground _)).trans rfl

theorem takePulse_planLegal (lines : ScanLines) (dir : Move) (hp : PlanLegal p) : PlanLegal (takePulse lines dir p) :=
  movePulse_planLegal _ _ (hp.of_plans ((enterMoving_plans _).trans rfl))

/-- Every command keeps plan memory and the contexts legal. -/
theorem Effect.planLegal (h : Effect p q) (hp : PlanLegal p) : PlanLegal q := by
  cases h with
  | powerOn _ => exact planLegal_afterReset _ _
  | powerLoss left _ =>
    exact (planLegal_afterReset { p.store with copy := copyLeft p.store left, save := Option.none } p.lines).of_plans rfl
  | reset _ => exact planLegal_afterReset _ _
  | received r => unfold offerRequest; split <;> exact hp
  | sent m rest _ _ =>
    unfold sendHead
    split
    · exact planLegal_afterReset _ _
    · exact hp
  | linkRestarted _ =>
    unfold restartLink
    split
    · exact planLegal_afterReset _ _
    · exact hp
  | admitted source =>
    unfold admitInTurn
    split
    · exact hp.of_plans (plans_of_ground (ground_of_offPort (admitSource_offPort p source)))
    · exact hp
  | sleeperDone x _ _ _ => exact hp.of_plans (plans_of_ground ((renewAndStart_ground _).trans (acceptRecord_ground p x)))
  | sample ch level _ => exact hp.of_plans (sampleEvent_plans ch level p)
  | pulse line1 line2 dir lines _ => exact takePulse_planLegal lines dir (hp.of_plans rfl)
  | standstillEntered _ _ => exact hp.of_plans ((plans_of_ground (startEvent_ground _)).trans rfl)
  | foldConfirmed arm folded _ _ _ => exact hp.of_plans ((plans_of_ground (confirmUnits_ground _)).trans rfl)
  | estopAsserted _ _ => exact hp.of_plans ((plans_of_ground (cycleEstop_ground _)).trans rfl)
  | moveExpired x _ _ => exact hp.of_plans (plans_of_ground (expireMove_ground p x))
  | moveExpiredPositioned x _ _ => exact hp.of_plans (plans_of_ground ((positioned_ground _).trans (expireMove_ground p x)))
  | releaseEnded _ _ _ => exact hp.of_plans (plans_of_ground ((cycleReleaseEnd_ground _ _).trans (endRelease_ground p)))
  | foldTimedOut _ _ => exact hp.of_plans ((plans_of_ground (endFolding_ground _)).trans rfl)
  | penetrationTimedOut _ _ => exact hp.of_plans ((plans_of_ground (enterSqueezing_ground _)).trans rfl)
  | squeezeTimedOut _ _ => exact hp.of_plans ((plans_of_ground (endSqueezing_ground _ enterPenetrating_ground)).trans rfl)
  | raiseTimedOut _ _ _ => exact hp.of_plans (plans_of_ground (endRaise_ground _ enterPenetrating_ground))
  | raiseStuck _ _ _ => exact hp.of_plans (plans_of_ground (stuckFault_ground p))
  | lockoutRaiseTimedOut _ _ _ => exact hp.of_plans (plans_of_ground (afterLockoutDepth_ground p))
  | lockoutRaiseStuck _ _ _ => exact hp.of_plans ((plans_of_ground (addCause_ground _ _ _)).trans rfl)
  | saveEnded _ _ _ _ => exact hp.of_plans ((plans_of_ground (handEvent_ground _ _)).trans rfl)
  | request r rest a _ _ _ ha =>
    have hfound := hp.of_plans (foundPart_plans p r rest)
    have hdone : PlanLegal a.part := by
      rcases ha with ha | ⟨-, ha⟩
      · rw [ha]; exact hfound
      · exact ha.planLegal hfound
    exact hdone.of_plans rfl
  | _ => exact hp
end

/-- Settles O60, by what a command can do to plan memory and the contexts. -/
theorem thePlanStaysLegal : Obligations.ThePlanStaysLegal := by
  unfold Obligations.ThePlanStaysLegal
  exact fun s t hs h => (step_effect h).planLegal hs

end Sys2Proof.Machine
end

section
/-! PROOF. The catch-up leaves no segment end at or behind C (R75, R84). Each segment end moves the start of the current segment
on by at least 500 mm, so the ends that the distance to C allows are enough; and every other command keeps the distance from C
or shortens it to nothing that a context waits at. -/

namespace Sys2Proof.Machine
open Sys2Proof Sys2Proof.Safety

/-! ### What a context waits at -/

/-- R75, R84: what a context waits at lies ahead of a chainage. -/
def WaitsAhead (d : Direction) (x : Int) (c : Context) : Prop :=
  (∀ r, c.state = .running → c.current = some r → 0 < aheadBy d (segmentEndOf d r) x) ∧
  (∀ first start, c.state = .armed → c.armed = some (first, start) → 0 < aheadBy d start x)

theorem contextsAhead_iff (p : Part) :
    ContextsAhead p ↔ ∀ i, WaitsAhead p.travel.direction (chainageC p) (p.ctx i) := Iff.rfl

theorem aheadBy_eq (d : Direction) (x y : Int) : aheadBy d x y = dirSign d * x - dirSign d * y := Int.mul_sub ..

theorem dirSign_mul_self (d : Direction) : dirSign d * dirSign d = 1 := by cases d <;> rfl

/-- How far the end of a segment lies ahead of a chainage. -/
theorem aheadBy_segmentEndOf (d : Direction) (r : SegmentRecord) (x : Int) :
    aheadBy d (segmentEndOf d r) x = segmentLength r.shadow - aheadBy d x r.start := by
  have h : dirSign d * (dirSign d * segmentLength r.shadow) = segmentLength r.shadow := by
    rw [← Int.mul_assoc, dirSign_mul_self, Int.one_mul]
  rw [aheadBy_eq, aheadBy_eq, segmentEndOf, Int.mul_add, h]
  omega

section
variable {d : Direction} {x : Int} {c : Context}

theorem waitsAhead_of_idle (hrun : c.state ≠ .running) (harm : c.state ≠ .armed) : WaitsAhead d x c :=
  ⟨fun _ h => absurd h hrun, fun _ _ h => absurd h harm⟩

/-- What lies ahead of C lies ahead of every place behind C. -/
theorem WaitsAhead.retreat {y : Int} (h : WaitsAhead d x c) (hy : 0 ≤ aheadBy d x y) : WaitsAhead d y c := by
  simp only [WaitsAhead, aheadBy_eq] at *
  exact ⟨fun r hs hr => by have := h.1 r hs hr; omega, fun first start hs hr => by have := h.2 first start hs hr; omega⟩
end

/-! ### The operations of one context -/

section
variable {p : Part} {i : ContextId}

theorem chainageC_of_travel_store {p q : Part} (ht : q.travel = p.travel) (hs : q.store = p.store) :
    chainageC q = chainageC p := by
  unfold chainageC; rw [ht, hs]

theorem travel_of_offPlan {p q : Part} (h : q.offPlan = p.offPlan) : q.travel = p.travel := congrArg (fun x => x.1.2.2.2.1) h
theorem store_of_offPlan {p q : Part} (h : q.offPlan = p.offPlan) : q.store = p.store :=
  congrArg (fun x => x.1.2.2.2.2.2.2.2.2) h

theorem chainageC_of_offPlan {p q : Part} (h : q.offPlan = p.offPlan) : chainageC q = chainageC p :=
  chainageC_of_travel_store (travel_of_offPlan h) (store_of_offPlan h)

theorem ctx_withPlan (plan : Table Slot) (j : ContextId) : ({ p with plan := plan } : Part).ctx j = p.ctx j := by
  cases j <;> rfl

/-- R82: a segment end leaves the context RUNNING on a segment that starts where the last one ended, or STARVED, or DEAD. -/
theorem segmentEnd_cases (p : Part) (i : ContextId) (r : SegmentRecord) (hst : (p.ctx i).state = .running) :
    (((segmentEnd p i r).ctx i).state = .running ∧ ∃ r', ((segmentEnd p i r).ctx i).current = some r' ∧
      r'.start = segmentEndOf p.travel.direction r) ∨
    ((segmentEnd p i r).ctx i).state = .starved ∨ ((segmentEnd p i r).ctx i).state = .dead := by
  unfold segmentEnd
  simp only
  split
  · exact .inl ⟨by rw [Part.setCtx_ctx_self]; exact hst, _, by rw [Part.setCtx_ctx_self], rfl⟩
  · split
    · exact .inr (.inl (by rw [handPlanState_ctx, Part.setCtx_ctx_self]))
    · split
      · exact .inl ⟨by rw [setWalk_ctx]; exact hst, _, by rw [setWalk_ctx], rfl⟩
      · exact .inr (.inr (contextDies_ctx _ _ _ _ _))

theorem segmentEnd_ctx_other {j : ContextId} (r : SegmentRecord) (h : j ≠ i) : (segmentEnd p i r).ctx j = p.ctx j := by
  unfold segmentEnd
  simp only
  split
  · rw [setCtx_ctx_other _ h, ctx_withPlan]
  · split
    · rw [handPlanState_ctx, setCtx_ctx_other _ h, ctx_withPlan]
    · split
      · rw [setWalk_ctx_other _ _ h, ctx_withPlan]
      · rw [contextDies_ctx_other _ _ _ _ _ h, ctx_withPlan]

theorem catchUpBy_of_not_running (n : Nat) (h : (p.ctx i).state ≠ .running) : catchUpBy i n p = p := by
  cases n with
  | zero => rfl
  | succ n =>
    unfold catchUpBy
    split
    · next hst _ => exact absurd hst h
    · rfl

theorem catchUpBy_ctx_other {j : ContextId} (n : Nat) (p : Part) (h : j ≠ i) : (catchUpBy i n p).ctx j = p.ctx j := by
  induction n generalizing p with
  | zero => rfl
  | succ n ih =>
    unfold catchUpBy
    split
    · split
      · rw [ih, segmentEnd_ctx_other _ h]
      · rfl
    · rfl

theorem segmentLength_of_legal {r : SegmentRecord} (h : isOwnKind i r.shadow = true ∧ DescriptorLegal r.shadow) :
    500 ≤ segmentLength r.shadow := by
  obtain ⟨hown, hlen⟩ := h
  cases hr : r.shadow with
  | segmentH s => rw [hr] at hlen; exact hlen.1
  | segmentV s => rw [hr] at hlen; exact hlen.1
  | _ => rw [hr] at hown; cases i <;> cases hown

/-- The states that a catch-up leaves. -/
def CaughtUp (d : Direction) (x : Int) (c : Context) : Prop :=
  c.state ∈ [ContextState.running, .starved, .dead] ∧
  (c.state = .running → ∃ r, c.current = some r ∧ 0 < aheadBy d (segmentEndOf d r) x)

theorem CaughtUp.waitsAhead {d : Direction} {x : Int} {c : Context} (h : CaughtUp d x c) : WaitsAhead d x c := by
  obtain ⟨hst, hrun⟩ := h
  refine ⟨fun r hs hr => ?_, fun _ _ hs => ?_⟩
  · obtain ⟨r', hr', hahead⟩ := hrun hs
    rw [hr] at hr'
    cases hr'
    exact hahead
  · rw [hs] at hst; simp at hst

/-- R84: as many segment ends as the distance to C allows at 500 mm each leave none at or behind C. -/
theorem catchUpBy_caughtUp (n : Nat) {p : Part} {r : SegmentRecord} (hp : PlanLegal p) (hst : (p.ctx i).state = .running)
    (hcur : (p.ctx i).current = some r) (hn : aheadBy p.travel.direction (chainageC p) r.start < 500 * n) :
    CaughtUp p.travel.direction (chainageC p) ((catchUpBy i n p).ctx i) := by
  induction n generalizing p r with
  | zero =>
    have hlen := segmentLength_of_legal ((hp.context i).2.2.2.2.2.2.2.2 r (.inl hcur))
    refine ⟨by simp [catchUpBy, hst], fun _ => ⟨r, hcur, ?_⟩⟩
    rw [aheadBy_segmentEndOf]
    omega
  | succ n ih =>
    have hlen := segmentLength_of_legal ((hp.context i).2.2.2.2.2.2.2.2 r (.inl hcur))
    have hstep : catchUpBy i (n + 1) p = if atEnd p r then catchUpBy i n (segmentEnd p i r) else p := by
      rw [catchUpBy, hst, hcur]
    rw [hstep]
    split
    · have hoff := segmentEnd_offPlan p i r
      have hC := chainageC_of_offPlan hoff
      have hT := travel_of_offPlan hoff
      rcases segmentEnd_cases p i r hst with ⟨hrun, r', hcur', hstart⟩ | hidle
      · have := ih (segmentEnd_planLegal hp hst hcur) hrun hcur' (by
          have hend := aheadBy_segmentEndOf p.travel.direction r (chainageC p)
          rw [hC, hT, hstart]
          simp only [aheadBy_eq] at hend hn ⊢
          push_cast at hn
          omega)
        rwa [hC, hT] at this
      · have hnot : ((segmentEnd p i r).ctx i).state ≠ .running := by rcases hidle with h | h <;> simp [h]
        rw [catchUpBy_of_not_running n hnot]
        exact ⟨by rcases hidle with h | h <;> simp [h], fun h => absurd h hnot⟩
    · next hend =>
      refine ⟨by simp [hst], fun _ => ⟨r, hcur, ?_⟩⟩
      simp only [atEnd, decide_eq_true_eq, aheadBy_eq] at hend ⊢
      omega

theorem aheadBy_lt_ends (d : Direction) (x y : Int) : aheadBy d x y < 500 * (((x - y).natAbs / 500 + 1 : Nat) : Int) := by
  cases d <;> simp only [aheadBy, dirSign] <;> omega

/-- R84: the catch-up of a RUNNING context. -/
theorem catchUp_caughtUp (hp : PlanLegal p) (hst : (p.ctx i).state = .running) :
    CaughtUp p.travel.direction (chainageC p) ((catchUp p i).ctx i) := by
  obtain ⟨r, hcur⟩ := Option.isSome_iff_exists.1 ((hp.context i).2.2.2.1 hst)
  unfold catchUp
  rw [hcur]
  exact catchUpBy_caughtUp _ hp hst hcur (aheadBy_lt_ends _ _ _)

theorem catchUp_ctx_other {j : ContextId} (h : j ≠ i) : (catchUp p i).ctx j = p.ctx j := by
  unfold catchUp
  split
  · rfl
  · exact catchUpBy_ctx_other _ _ h

/-- R84: a context that has come to run has caught up. -/
theorem waitsAhead_of_runsOrDies {q : Part} (h : RunsOrDies p i q) :
    WaitsAhead p.travel.direction (chainageC p) (q.ctx i) ∧ q.offPlan = p.offPlan ∧ ∀ j, j ≠ i → q.ctx j = p.ctx j := by
  cases h with
  | runs q slot hq hst hoff hother =>
    have hoff' : (handPlanState q i slot).offPlan = p.offPlan := (handPlanState_offPlan q i slot).trans hoff
    have hahead := (catchUp_caughtUp (handPlanState_planLegal (i := i) slot hq) (by rw [handPlanState_ctx]; exact hst)).waitsAhead
    rw [chainageC_of_offPlan hoff', travel_of_offPlan hoff'] at hahead
    exact ⟨hahead, (catchUp_offPlan _ _).trans hoff',
      fun j hj => by rw [catchUp_ctx_other hj, handPlanState_ctx, hother j hj]⟩
  | dies _ _ hst hoff hother => exact ⟨waitsAhead_of_idle (by simp [hst]) (by simp [hst]), hoff, hother⟩

/-- A change of one context, after which what it waits at lies ahead of C. -/
theorem contextsAhead_of_one {q : Part} (h : ContextsAhead p)
    (hq : WaitsAhead p.travel.direction (chainageC p) (q.ctx i) ∧ q.offPlan = p.offPlan ∧
      ∀ j, j ≠ i → q.ctx j = p.ctx j) :
    ContextsAhead q := by
  obtain ⟨hone, hoff, hother⟩ := hq
  rw [contextsAhead_iff, chainageC_of_offPlan hoff, travel_of_offPlan hoff]
  intro j
  by_cases hj : j = i
  · exact hj ▸ hone
  · rw [hother j hj]; exact h j

/-- R75, R82: an advance leaves nothing that the context waits at at or behind C. -/
theorem contextAdvance_waitsAhead (i : ContextId) (hp : PlanLegal p) :
    WaitsAhead p.travel.direction (chainageC p) ((contextAdvance i p).ctx i) ∧ (contextAdvance i p).offPlan = p.offPlan ∧
      ∀ j, j ≠ i → (contextAdvance i p).ctx j = p.ctx j := by
  unfold contextAdvance
  simp only
  split
  · next hst =>
    split
    · next harm => exact ⟨⟨fun r h _ => by simp [hst] at h, fun _ _ _ h => by simp [harm] at h⟩, rfl, fun _ _ => rfl⟩
    · next first start harm =>
      split
      · exact waitsAhead_of_runsOrDies (startContext_runsOrDies _ _ hp (.inr hst))
      · next hnot =>
        refine ⟨⟨fun r h _ => by simp [hst] at h, fun first' start' _ h => ?_⟩, rfl, fun _ _ => rfl⟩
        rw [harm] at h
        cases h
        rw [aheadBy_eq] at *
        omega
  · next hst =>
    exact ⟨(catchUp_caughtUp hp hst).waitsAhead, catchUp_offPlan _ _, fun j hj => catchUp_ctx_other hj⟩
  · next harm hrun => exact ⟨waitsAhead_of_idle hrun harm, rfl, fun _ _ => rfl⟩

/-- R74, R75: PLAN RUN arms the context ahead of C, or runs it. -/
theorem runContext_waitsAhead (first : Nat) (start : Option Int) (hp : PlanLegal p) (hst : (p.ctx i).state = .stopped) :
    WaitsAhead p.travel.direction (chainageC p) ((runContext p i first start).ctx i) ∧
      (runContext p i first start).offPlan = p.offPlan ∧ ∀ j, j ≠ i → (runContext p i first start).ctx j = p.ctx j := by
  unfold runContext
  split
  · exact waitsAhead_of_runsOrDies (startContext_runsOrDies _ _ hp (.inl hst))
  · split
    · next x hx =>
      refine ⟨?_, (handPlanState_offPlan _ _ _).trans (setCtx_offPlan _ _ _), fun j hj => ?_⟩
      · unfold armContext
        rw [handPlanState_ctx, Part.setCtx_ctx_self]
        exact ⟨fun r h => by simp at h, fun first' start' _ h => by cases h; exact hx⟩
      · unfold armContext
        rw [handPlanState_ctx, setCtx_ctx_other _ hj]
    · exact waitsAhead_of_runsOrDies (startContext_runsOrDies _ _ hp (.inl hst))

theorem wakeContext_ahead (hp : PlanLegal p) (hst : (p.ctx i).state = .starved) (h : ContextsAhead p) :
    ContextsAhead (wakeContext p i) := by
  rcases wakeContext_cases hp hst with he | hr
  · rw [he]; exact h
  · exact contextsAhead_of_one h (waitsAhead_of_runsOrDies hr)

theorem stopContext_ahead (i : ContextId) (h : ContextsAhead p) : ContextsAhead (stopContext p i) := by
  refine contextsAhead_of_one h (i := i) ⟨?_, stopContext_offPlan p i, fun j hj => ?_⟩
  · unfold stopContext
    simp only
    rw [handPlanState_ctx, Part.setCtx_ctx_self]
    exact waitsAhead_of_idle (by decide) (by decide)
  · unfold stopContext
    simp only
    rw [handPlanState_ctx, setCtx_ctx_other _ hj, ctx_withPlan]
end

/-! ### What keeps the course of C -/

/-- Where C stands, which way it works, and the contexts. -/
def Part.course (p : Part) : Direction × Int × Context × Context := (p.travel.direction, chainageC p, p.ctxH, p.ctxV)

section
variable {p q : Part}

theorem contextsAhead_of_course (hp : ContextsAhead p) (h : q.course = p.course) : ContextsAhead q := by
  simp only [Part.course, Prod.mk.injEq] at h
  obtain ⟨hd, hx, hh, hv⟩ := h
  rw [contextsAhead_iff, hd, hx]
  intro i
  cases i
  · show WaitsAhead _ _ q.ctxH
    rw [hh]
    exact hp .h
  · show WaitsAhead _ _ q.ctxV
    rw [hv]
    exact hp .v

theorem course_of_parts (ht : q.travel = p.travel) (hs : q.store = p.store) (hc : q.plans = p.plans) :
    q.course = p.course := by
  simp only [Part.plans, Prod.mk.injEq] at hc
  simp only [Part.course, chainageC_of_travel_store ht hs, ht, hc]

theorem travel_of_ground (h : q.ground = p.ground) : q.travel = p.travel := congrArg Ground.travel h
theorem store_of_ground (h : q.ground = p.ground) : q.store = p.store := congrArg Ground.store h

theorem course_of_ground (h : q.ground = p.ground) : q.course = p.course :=
  course_of_parts (travel_of_ground h) (store_of_ground h) (plans_of_ground h)

/-- With both contexts STOPPED nothing is waited at. -/
theorem contextsAhead_of_stopped (h : ∀ i, (p.ctx i).state = .stopped) : ContextsAhead p := fun i =>
  waitsAhead_of_idle (by simp [h i]) (by simp [h i])

theorem contextsStopped_iff (p : Part) : contextsStopped p = true ↔ ∀ i, (p.ctx i).state = .stopped := by
  rw [forall_contextId]
  simp [contextsStopped, Part.ctx]

theorem contextsAhead_of_plans (h : q.plans = p.plans) (hs : contextsStopped p = true) : ContextsAhead q :=
  contextsAhead_of_stopped fun i => by rw [ctx_of_plans h]; exact (contextsStopped_iff p).1 hs i

theorem contextsAhead_afterReset (st : Store) (lines : Lines) : ContextsAhead (.afterReset st lines) :=
  contextsAhead_of_stopped fun i => by cases i <;> rfl

theorem chainageC_none (h : p.travel.originState = .none) : chainageC p = 0 := by unfold chainageC; rw [h]

theorem chainageC_set (h : p.travel.originState = .set) :
    chainageC p = chainageOf p.travel p.store.working.pitch p.travel.pulses := by unfold chainageC; rw [h]

/-- R10, R196: a change of the pitch is allowed only where nothing is waited at. -/
theorem contextsAhead_of_pitchAllowed (hp : ContextsAhead p) (hc : pitchAllowed p = true) (hplans : q.plans = p.plans)
    (hd : q.travel.direction = p.travel.direction) (ho : q.travel.originState = p.travel.originState) :
    ContextsAhead q := by
  simp only [pitchAllowed, Bool.or_eq_true, Bool.and_eq_true, decide_eq_true_eq] at hc
  rcases hc with hnone | hstop
  · refine contextsAhead_of_course hp ?_
    simp only [Part.plans, Prod.mk.injEq] at hplans
    simp only [Part.course, hd, hplans, chainageC_none hnone, chainageC_none (ho.trans hnone)]
  · exact contextsAhead_of_plans hplans hstop.2

theorem rebase_travel (p : Part) :
    (rebase p).travel.direction = p.travel.direction ∧ (rebase p).travel.originState = p.travel.originState := by
  unfold rebase; split <;> exact ⟨rfl, rfl⟩

theorem moveScanFront_travel (p : Part) : (moveScanFront p).travel = p.travel := by unfold moveScanFront; split <;> rfl
theorem passToSupervisor_travel (p : Part) (old new : Int) : (passToSupervisor p old new).travel = p.travel := by
  unfold passToSupervisor; split <;> rfl
theorem passFromPart_travel (p : Part) (old new : Int) : (passFromPart p old new).travel = p.travel := by
  unfold passFromPart; split <;> rfl

/-- R3: C stands where the travel counter and the pitch put it. -/
theorem chainageC_congr (ht : q.travel = p.travel) (hpitch : q.store.working.pitch = p.store.working.pitch) :
    chainageC q = chainageC p := by unfold chainageC; rw [ht, hpitch]

theorem course_of_pitch (ht : q.travel = p.travel) (hpitch : q.store.working.pitch = p.store.working.pitch)
    (hc : q.plans = p.plans) : q.course = p.course := by
  simp only [Part.plans, Prod.mk.injEq] at hc
  simp only [Part.course, chainageC_congr ht hpitch, ht, hc]

/-- R196: apart from the pitch, a write leaves the travel counter as it is. -/
theorem writeSetting_travel (p : Part) (id : SettingId) (v : Int) (h : id ≠ .pitch) :
    (writeSetting p id v).travel = p.travel := by
  cases id with
  | pitch => exact absurd rfl h
  | scannerOffset => exact moveScanFront_travel _
  | positionTolerance => exact (travel_of_ground (renewAndStart_ground _)).trans rfl
  | supervisorNode => exact passToSupervisor_travel _ _ _
  | partNode => exact passFromPart_travel _ _ _
  | _ => rfl

/-- R196: the working record that a write leaves. -/
theorem writeSetting_store (p : Part) (id : SettingId) (v : Int) :
    (writeSetting p id v).store = { p.store with working := p.store.working.set id v } :=
  congrArg (fun x => x.2.1) (writeSetting_registers p id v)

theorem writeSetting_ahead {id : SettingId} {v : Int} (hp : ContextsAhead p) (hbusy : settingBusy p id = false) :
    ContextsAhead (writeSetting p id v) := by
  by_cases hid : id = .pitch
  · subst hid
    exact contextsAhead_of_pitchAllowed hp (by simpa [settingBusy] using hbusy) (writeSetting_plans p _ v) (rebase_travel p).1
      (rebase_travel p).2
  · refine contextsAhead_of_course hp (course_of_pitch (writeSetting_travel p id v hid) ?_ (writeSetting_plans p id v))
    rw [writeSetting_store]
    exact (Settings.get_set p.store.working id .pitch v).trans (if_neg fun h => hid h.symm)

/-- R200: the working record that a load leaves. -/
theorem adoptSettings_store (p : Part) (new : Settings) :
    (adoptSettings p new).store = { p.store with working := new, status := .loaded } :=
  congrArg (fun x => x.2.1) (adoptSettings_registers p new)

/-- R200: a load changes the travel counter only where it changes the pitch. -/
theorem adoptSettings_travel (p : Part) (new : Settings) :
    (adoptSettings p new).travel = if new.pitch = p.store.working.pitch then p.travel else (rebase p).travel := by
  have moved : ∀ q : Part,
      (if new.scannerOffset = p.store.working.scannerOffset then q else moveScanFront q).travel = q.travel := by
    intro q
    split
    · rfl
    · exact moveScanFront_travel q
  have renewed : ∀ q : Part,
      (if new.positionTolerance = p.store.working.positionTolerance then q else renewAndStart q).travel = q.travel := by
    intro q
    split
    · rfl
    · exact travel_of_ground (renewAndStart_ground q)
  refine (renewed _).trans ?_
  rw [passFromPart_travel, passToSupervisor_travel, moved]
  show (if _ then p else rebase p).travel = _
  split <;> rfl

theorem adoptSettings_ahead {new : Settings} (hp : ContextsAhead p) (hbusy : loadBusy p new = false) :
    ContextsAhead (adoptSettings p new) := by
  have htravel := adoptSettings_travel p new
  by_cases hpitch : new.pitch = p.store.working.pitch
  · rw [if_pos hpitch] at htravel
    refine contextsAhead_of_course hp (course_of_pitch htravel ?_ (adoptSettings_plans p new))
    rw [adoptSettings_store]
    exact hpitch
  · rw [if_neg hpitch] at htravel
    have hallowed : pitchAllowed p = true := by
      simp only [loadBusy, Bool.or_eq_false_iff, Bool.and_eq_false_iff, decide_eq_false_iff_not, not_not] at hbusy
      rcases hbusy.1 with h | h
      · exact absurd h hpitch
      · simpa using h
    exact contextsAhead_of_pitchAllowed hp hallowed (adoptSettings_plans p new) (by rw [htravel]; exact (rebase_travel p).1)
      (by rw [htravel]; exact (rebase_travel p).2)

/-- What a block decides keeps the contexts ahead of C. -/
theorem Decided.contextsAhead {r : Request} (h : Decided r p q) (hl : PlanLegal p) (hp : ContextsAhead p) :
    ContextsAhead q := by
  cases h with
  | originSet origin d _ hbusy =>
    refine contextsAhead_of_plans (p := p)
      ((plans_of_ground ((renewAndStart_ground _).trans (testStopPoint_ground _))).trans rfl) ?_
    simp only [originBusy, Bool.or_eq_false_iff] at hbusy
    simpa using hbusy.1.2
  | settingWritten id v _ _ hbusy => exact writeSetting_ahead hp hbusy
  | loaded _ _ _ hbusy => exact adoptSettings_ahead hp hbusy
  | zeroCaptured ch _ => exact contextsAhead_of_course hp (course_of_pitch rfl rfl rfl)
  | planRun i first start _ hst => exact contextsAhead_of_one hp (runContext_waitsAhead first start hl hst)
  | planWoken i hst => exact wakeContext_ahead hl hst hp
  | planStopped i _ => exact stopContext_ahead i hp
  | skipMarked n c => exact contextsAhead_of_course hp (course_of_ground (markSkip_ground p n c))
  | skipCleared n =>
    exact contextsAhead_of_course hp (course_of_ground ((startEvent_ground _).trans (markSkip_ground p n none)))
  | haltCleared l _ =>
    exact contextsAhead_of_course hp (course_of_ground
      ((startEvent_ground _).trans ((testStopPoint_ground _).trans (rearmLatch_ground p l))))
  | modeSet m => exact contextsAhead_of_course hp (course_of_ground (setMode_ground p m))
  | cycleStarted x _ => exact contextsAhead_of_course hp (course_of_ground (startCycle_ground p x))
  | cycleStopped => exact contextsAhead_of_course hp (course_of_ground (stopCycle_ground p))
  | unitsRaised _ _ => exact contextsAhead_of_course hp (course_of_ground (raiseUnits_ground p))
  | clearedInIdle _ => exact contextsAhead_of_course hp (course_of_ground (startEvent_ground p))
  | lockoutCleared _ _ _ => exact contextsAhead_of_course hp ((course_of_ground (startEvent_ground _)).trans rfl)
  | _ => exact hp

theorem settle_course (p : Part) : (settle p).course = p.course := by
  unfold settle
  simp only
  rw [course_of_ground (ground_of_offPort (afterHandOn_offPort _))]
  split <;> rfl

theorem sampleEvent_course (ch : Channel) (level : Int) (p : Part) : (sampleEvent ch level p).course = p.course := by
  have taken : (cycleSample ch (driveSample ch (recordSample p ch level))).course = p.course :=
    (course_of_ground ((cycleSample_ground _ _).trans (driveSample_ground _ _))).trans rfl
  unfold sampleEvent
  simp only
  split
  · exact (settle_course _).trans taken
  · exact taken

/-! ### The travel step (R2, R4) -/

theorem roundDiv_mono {a b d : Int} (hd : 0 < d) (h : a ≤ b) : roundDiv a d ≤ roundDiv b d := by
  rcases lt_or_ge a 0 with ha | ha <;> rcases lt_or_ge b 0 with hb' | hb'
  · rw [roundDiv_of_neg ha hd, roundDiv_of_neg hb' hd]
    exact Int.neg_le_neg (Int.ediv_le_ediv (by omega) (by omega))
  · rw [roundDiv_of_neg ha hd, roundDiv_of_nonneg hb' hd]
    have h1 : 0 ≤ (2 * -a + d) / (2 * d) := Int.ediv_nonneg (by omega) (by omega)
    have h2 : 0 ≤ (2 * b + d) / (2 * d) := Int.ediv_nonneg (by omega) (by omega)
    omega
  · omega
  · rw [roundDiv_of_nonneg ha hd, roundDiv_of_nonneg hb' hd]
    exact Int.ediv_le_ediv (by omega) (by omega)

/-- R3: with a positive pitch, fewer pulses put C behind. -/
theorem chainageOf_mono (t : Travel) {pitch n m : Int} (hpitch : 0 ≤ pitch) (h : n ≤ m) :
    0 ≤ aheadBy t.direction (chainageOf t pitch m) (chainageOf t pitch n) := by
  have hmono := roundDiv_mono (d := 1000) (by decide) (Int.mul_le_mul_of_nonneg_right h hpitch)
  simp only [aheadBy, chainageOf]
  rw [show t.origin + dirSign t.direction * roundDiv (m * pitch) 1000 -
      (t.origin + dirSign t.direction * roundDiv (n * pitch) 1000) =
      dirSign t.direction * (roundDiv (m * pitch) 1000 - roundDiv (n * pitch) 1000) by ring]
  rw [← Int.mul_assoc, dirSign_mul_self]
  omega

theorem stepPulses_course (p : Part) (n : Int) (h : p.travel.originState = .set) :
    (stepPulses p n).course = (p.travel.direction, chainageOf p.travel p.store.working.pitch n, p.ctxH, p.ctxV) := by
  have hset : (stepPulses p n).travel.originState = .set := h
  simp only [Part.course, chainageC_set hset]
  rfl

theorem blocksTakeStep_backward_ahead (lines : ScanLines) (hp : ContextsAhead p) :
    ContextsAhead (blocksTakeStep lines .backward p) := contextsAhead_of_course hp (course_of_ground (renewAndStart_ground p))

/-- R75, R84: an advance leaves both contexts ahead of C, wherever they were. -/
theorem blocksTakeStep_forward_ahead (lines : ScanLines) (hl : PlanLegal p) :
    ContextsAhead (blocksTakeStep lines .forward p) := by
  have hq : PlanLegal (renewAndStart (passRecords (scannerAdvance lines p))) := hl.of_plans
    ((plans_of_ground ((renewAndStart_ground _).trans (ground_of_offQueue (passRecords_offQueue _)))).trans
      (plans_of_offScanner (scannerAdvance_offScanner p lines)))
  obtain ⟨hah, hoffh, -⟩ := contextAdvance_waitsAhead .h hq
  obtain ⟨hav, hoffv, hotherv⟩ := contextAdvance_waitsAhead .v (contextAdvance_planLegal (i := .h) hq)
  rw [contextsAhead_iff, forall_contextId]
  show WaitsAhead (Part.travel (contextAdvance .v _)).direction (chainageC (contextAdvance .v _))
      (Part.ctx (contextAdvance .v _) .h) ∧
    WaitsAhead (Part.travel (contextAdvance .v _)).direction (chainageC (contextAdvance .v _)) (Part.ctx (contextAdvance .v _) .v)
  rw [chainageC_of_offPlan hoffv, travel_of_offPlan hoffv]
  refine ⟨?_, hav⟩
  rw [hotherv .h (by decide), chainageC_of_offPlan hoffh, travel_of_offPlan hoffh]
  exact hah

theorem movePulse_ahead (lines : ScanLines) (dir : Move) (hl : PlanLegal p) (hpitch : 0 ≤ p.store.working.pitch)
    (hp : ContextsAhead p) : ContextsAhead (movePulse lines dir p) := by
  unfold movePulse
  split
  · exact hp
  · next hset =>
    simp only
    split
    · cases dir with
      | forward => exact blocksTakeStep_forward_ahead lines (hl.of_plans rfl)
      | backward =>
        refine blocksTakeStep_backward_ahead lines ?_
        have hcourse := stepPulses_course p (pulsesAfter p .backward) hset
        simp only [Part.course, Prod.mk.injEq] at hcourse
        obtain ⟨hd, hx, hh, hv⟩ := hcourse
        have hback := chainageOf_mono p.travel hpitch (n := pulsesAfter p .backward) (m := p.travel.pulses)
          (by show p.travel.pulses - 1 ≤ _; omega)
        rw [← chainageC_set hset] at hback
        rw [contextsAhead_iff, hd, hx, forall_contextId]
        exact ⟨WaitsAhead.retreat (hp .h) hback, WaitsAhead.retreat (hp .v) hback⟩
    · rcases refusePulse_cases p (decide (maxChainage < chainageOf p.travel p.store.working.pitch (pulsesAfter p dir)))
        with h | ⟨_, _, _, h⟩ <;> rw [h]
      · exact hp
      · exact contextsAhead_of_course hp ((course_of_ground (handEvent_ground _ _)).trans rfl)

theorem enterMoving_course (p : Part) : (enterMoving p).course = p.course := by
  unfold enterMoving
  split
  · rfl
  · exact (course_of_ground (cycleMoving_ground _)).trans rfl

theorem enterMoving_store (p : Part) : (enterMoving p).store = p.store := by
  unfold enterMoving
  split
  · rfl
  · exact (store_of_ground (cycleMoving_ground _)).trans rfl

theorem takePulse_ahead (lines : ScanLines) (dir : Move) (hl : PlanLegal p) (hpitch : 0 ≤ p.store.working.pitch)
    (hp : ContextsAhead p) : ContextsAhead (takePulse lines dir p) :=
  movePulse_ahead _ _ (hl.of_plans ((enterMoving_plans _).trans rfl)) (by rw [enterMoving_store]; exact hpitch)
    (contextsAhead_of_course hp ((enterMoving_course _).trans rfl))

theorem foundPart_course (p : Part) (r : Request) (rest : List Request) : (foundPart p r rest).course = p.course :=
  course_of_parts (foundPart_travel p r rest) (foundPart_store p r rest) (foundPart_plans p r rest)

/-- Every command keeps what the contexts wait at ahead of C. -/
theorem Effect.contextsAhead (h : Effect p q) (hl : PlanLegal p) (hs : StoreLegal p) (hp : ContextsAhead p) :
    ContextsAhead q := by
  have hpitch : 0 ≤ p.store.working.pitch := le_trans (by decide) (consistent_range hs.1 .pitch).1
  cases h with
  | powerOn _ => exact contextsAhead_afterReset _ _
  | powerLoss left _ =>
    exact contextsAhead_of_course
      (contextsAhead_afterReset { p.store with copy := copyLeft p.store left, save := Option.none } p.lines) rfl
  | reset _ => exact contextsAhead_afterReset _ _
  | received r => unfold offerRequest; split <;> exact hp
  | sent m rest _ _ =>
    unfold sendHead
    split
    · exact contextsAhead_afterReset _ _
    · exact hp
  | linkRestarted _ =>
    unfold restartLink
    split
    · exact contextsAhead_afterReset _ _
    · exact hp
  | admitted source =>
    unfold admitInTurn
    split
    · exact contextsAhead_of_course hp (course_of_ground (ground_of_offPort (admitSource_offPort p source)))
    · exact hp
  | sleeperDone x _ _ _ =>
    exact contextsAhead_of_course hp (course_of_ground ((renewAndStart_ground _).trans (acceptRecord_ground p x)))
  | sample ch level _ => exact contextsAhead_of_course hp (sampleEvent_course ch level p)
  | pulse line1 line2 dir lines _ =>
    exact takePulse_ahead lines dir (hl.of_plans rfl) hpitch (contextsAhead_of_course hp rfl)
  | standstillIdle _ => exact contextsAhead_of_course hp rfl
  | standstillEntered _ _ => exact contextsAhead_of_course hp ((course_of_ground (startEvent_ground _)).trans rfl)
  | foldConfirmed arm folded _ _ _ =>
    exact contextsAhead_of_course hp ((course_of_ground (confirmUnits_ground _)).trans rfl)
  | estopAsserted _ _ => exact contextsAhead_of_course hp ((course_of_ground (cycleEstop_ground _)).trans rfl)
  | moveExpired x _ _ => exact contextsAhead_of_course hp (course_of_ground (expireMove_ground p x))
  | moveExpiredPositioned x _ _ =>
    exact contextsAhead_of_course hp (course_of_ground ((positioned_ground _).trans (expireMove_ground p x)))
  | releaseEnded _ _ _ =>
    exact contextsAhead_of_course hp (course_of_ground ((cycleReleaseEnd_ground _ _).trans (endRelease_ground p)))
  | foldTimedOut _ _ => exact contextsAhead_of_course hp ((course_of_ground (endFolding_ground _)).trans rfl)
  | penetrationTimedOut _ _ => exact contextsAhead_of_course hp ((course_of_ground (enterSqueezing_ground _)).trans rfl)
  | squeezeTimedOut _ _ =>
    exact contextsAhead_of_course hp ((course_of_ground (endSqueezing_ground _ enterPenetrating_ground)).trans rfl)
  | raiseTimedOut _ _ _ => exact contextsAhead_of_course hp (course_of_ground (endRaise_ground _ enterPenetrating_ground))
  | raiseStuck _ _ _ => exact contextsAhead_of_course hp (course_of_ground (stuckFault_ground p))
  | lockoutRaiseTimedOut _ _ _ => exact contextsAhead_of_course hp (course_of_ground (afterLockoutDepth_ground p))
  | lockoutRaiseStuck _ _ _ => exact contextsAhead_of_course hp ((course_of_ground (addCause_ground _ _ _)).trans rfl)
  | saveEnded _ _ _ _ => exact contextsAhead_of_course hp ((course_of_ground (handEvent_ground _ _)).trans rfl)
  | request r rest a _ _ _ ha =>
    have hfound := contextsAhead_of_course hp (foundPart_course p r rest)
    have hdone : ContextsAhead a.part := by
      rcases ha with ha | ⟨-, ha⟩
      · rw [ha]; exact hfound
      · exact ha.contextsAhead (hl.of_plans (foundPart_plans p r rest)) hfound
    exact contextsAhead_of_course hdone rfl
  | _ => exact hp
end

/-- Settles O35: the invariant by what a command can do to where C stands, and the catch-up by induction on the ends that the
distance to C allows. -/
theorem catchUpLeavesNoEndBehind : Obligations.CatchUpLeavesNoEndBehind := by
  unfold Obligations.CatchUpLeavesNoEndBehind
  refine ⟨fun s t hl hs hp h => (step_effect h).contextsAhead hl hs hp, fun p i hl hst => ?_⟩
  obtain ⟨hstate, hrun⟩ := catchUp_caughtUp hl hst
  exact ⟨catchUp_planLegal hl, chainageC_of_offPlan (catchUp_offPlan p i), hstate, hrun⟩

end Sys2Proof.Machine
end

section
/-! PROOF. The chainage stays in range, the motion state is the same wherever it is held, and the drive stays within its limits
(R6, R7, R131, R135, R144). Between two parts `Steady` says that the travel counter and both copies of the motion state are as
they were and that the drive stays legal; `Runs` says besides that a running cycle goes on, with its sleeper and its values. -/

namespace Sys2Proof.Machine
open Sys2Proof Sys2Proof.Safety

/-! ### The axes of the drive (R131, R135) -/

section
variable {x : Axis} {a : AxisState} {p q : Part} {d : Drive}

theorem PerAxis.get_map {α β : Type} (f : α → β) (t : PerAxis α) (x : Axis) : (t.map f).get x = f (t.get x) := by
  cases x <;> rfl

theorem PerAxis.get_set {α : Type} (t : PerAxis α) (x y : Axis) (v : α) :
    (t.set x v).get y = if y = x then v else t.get y := by cases x <;> cases y <;> rfl

theorem axisLegal_rest (x : Axis) : AxisLegal x .rest := by
  refine ⟨by decide, by decide, fun _ => by decide, fun _ => rfl, fun _ => rfl⟩

/-- An axis with the demand 0 is legal in every state. -/
theorem axisLegal_of_demand (hd : a.demand = 0) (hs : a.started = true) : AxisLegal x a := by
  refine ⟨by omega, by omega, fun _ => by omega, fun _ => hd, fun h => ?_⟩
  rw [hs] at h
  cases h

theorem movingDemand_bounds (x : Axis) (gain error : Int) :
    -100 ≤ movingDemand x gain error ∧ movingDemand x gain error ≤ 100 ∧ (x ≠ .line → 0 ≤ movingDemand x gain error) := by
  rw [movingDemand_eq]
  split
  · next h => exact ⟨by omega, by omega, fun hne => absurd h hne⟩
  · exact ⟨by omega, by omega, fun _ => by omega⟩

theorem axisLegal_updatedAxis (reading : Int) (hs : a.started = true) : AxisLegal x (updatedAxis x a reading) := by
  unfold updatedAxis
  simp only
  split
  · exact axisLegal_of_demand rfl hs
  · split
    · exact axisLegal_of_demand rfl hs
    · obtain ⟨hlow, hhigh, hfloor⟩ := movingDemand_bounds x (a.gain.getD 0) (axisError x (a.target.getD 0) reading)
      refine ⟨hlow, hhigh, hfloor, fun h => absurd rfl h, fun h => ?_⟩
      rw [show _ = true from hs] at h
      cases h

theorem axisLegal_heldAxis (h : AxisLegal x a) : AxisLegal x (heldAxis a) := by
  unfold heldAxis
  split
  · next hs => exact axisLegal_of_demand rfl hs
  · exact h

theorem axisLegal_startedAxis (t : Targets) : AxisLegal x (startedAxis p t x) := by
  unfold startedAxis
  split
  · exact axisLegal_rest x
  · exact axisLegal_updatedAxis _ rfl

/-- R131, R144: a drive at rest. -/
def Drive.AtRest (d : Drive) : Prop := (∀ x, d.axes.get x = .rest) ∧ d.clampEngaged = false ∧ d.releaseTimer = none

theorem driveLegal_of_atRest (h : p.drive.AtRest) : DriveLegal p :=
  ⟨fun x => by rw [h.1 x]; exact axisLegal_rest x, fun _ => h⟩

/-- With power and the line released, legal axes are all that the drive needs. -/
theorem driveLegal_of_axes (hpower : p.powered = true) (hline : p.lines.estop = false)
    (h : ∀ x, AxisLegal x (p.drive.axes.get x)) : DriveLegal p :=
  ⟨h, fun hc => by simp [hpower, hline] at hc⟩

theorem DriveLegal.congr (h : DriveLegal p) (hd : q.drive = p.drive) (hl : q.lines.estop = p.lines.estop)
    (hpower : q.powered = p.powered) : DriveLegal q := by
  unfold DriveLegal at *
  rw [hd, hl, hpower]
  exact h

theorem estop_of_started (hpower : p.powered = true) (h : DriveLegal p) (hs : (p.drive.axes.get x).started = true) :
    p.powered = true ∧ p.lines.estop = false := by
  refine ⟨hpower, Bool.eq_false_iff.2 fun hline => ?_⟩
  rw [(h.2 (.inl hline)).1 x] at hs
  cases hs

end

/-! ### Steady and running -/

/-- The travel counter and the two other copies of the motion state are as they were, and the drive stays legal. -/
structure Steady (p q : Part) : Prop where
  powered : q.powered = p.powered
  lines : q.lines = p.lines
  travel : q.travel = p.travel
  pitch : q.store.working.pitch = p.store.working.pitch
  queueMotion : q.queue.motion = p.queue.motion
  cycleMotion : q.cycle.motion = p.cycle.motion
  drive : p.powered = true → DriveLegal p → DriveLegal q

/-- The phases of a cycle go on: apart from the drive nothing but the cycle controller changes, which keeps its current
sleeper, its values and its causes, and stays in its state or comes to one of the five cycle states. -/
structure Runs (p q : Part) : Prop where
  steady : Steady p q
  ground : q.ground = p.ground
  queue : q.queue = p.queue
  current : q.cycle.current = p.cycle.current
  values : q.cycle.values = p.cycle.values
  causes : q.cycle.causes = p.cycle.causes
  phase : q.cycle.phase = p.cycle.phase ∨ InCyclePhase q.cycle.phase = true

section
variable {p q r : Part}

theorem Steady.refl (p : Part) : Steady p p := ⟨rfl, rfl, rfl, rfl, rfl, rfl, fun _ h => h⟩

theorem Steady.trans (h1 : Steady p q) (h2 : Steady q r) : Steady p r where
  powered := h2.powered.trans h1.powered
  lines := h2.lines.trans h1.lines
  travel := h2.travel.trans h1.travel
  pitch := h2.pitch.trans h1.pitch
  queueMotion := h2.queueMotion.trans h1.queueMotion
  cycleMotion := h2.cycleMotion.trans h1.cycleMotion
  drive := fun hp h => h2.drive (h1.powered.trans hp) (h1.drive hp h)

/-- A change that leaves the drive as it is. -/
theorem steady_of_drive_eq (hpower : q.powered = p.powered) (hl : q.lines = p.lines) (ht : q.travel = p.travel)
    (hpitch : q.store.working.pitch = p.store.working.pitch) (hqueue : q.queue.motion = p.queue.motion)
    (hcycle : q.cycle.motion = p.cycle.motion) (hd : q.drive = p.drive) : Steady p q :=
  ⟨hpower, hl, ht, hpitch, hqueue, hcycle, fun _ h => DriveLegal.congr h hd (congrArg Lines.estop hl) hpower⟩

theorem steady_of_offQueue (h : q.offQueue = p.offQueue) (hqueue : q.queue.motion = p.queue.motion) : Steady p q := by
  simp only [Part.offQueue, Part.ground, Prod.mk.injEq, Ground.mk.injEq] at h
  obtain ⟨⟨hpower, _, hl, ht, _, _, _, _, _, _, _, hs⟩, hd, hc⟩ := h
  exact steady_of_drive_eq hpower hl ht (by rw [hs]) hqueue (by rw [hc]) hd

theorem steady_of_offPort (h : q.offPort = p.offPort) : Steady p q :=
  steady_of_offQueue (offQueue_of_offPort h) (by rw [queue_of_offPort h])

theorem steady_of_offPlan (h : q.offPlan = p.offPlan) : Steady p q := by
  simp only [Part.offPlan, Prod.mk.injEq] at h
  obtain ⟨⟨hpower, _, hl, ht, _, _, _, _, hs⟩, hd, hc, hq⟩ := h
  exact steady_of_drive_eq hpower hl ht (by rw [hs]) (by rw [hq]) (by rw [hc]) hd

theorem steady_of_offScanner (h : q.offScanner = p.offScanner) (hqueue : q.queue.motion = p.queue.motion) : Steady p q := by
  simp only [Part.offScanner, Prod.mk.injEq] at h
  obtain ⟨⟨hpower, _, hl, ht, _, _, _, _, _, _, hs⟩, hd, hc⟩ := h
  exact steady_of_drive_eq hpower hl ht (by rw [hs]) hqueue (by rw [hc]) hd

theorem steady_withCycle {c : Cycle} (h : c.motion = p.cycle.motion) : Steady p (p.withCycle c) :=
  steady_of_drive_eq rfl rfl rfl rfl rfl h rfl

theorem steady_withDrive {d : Drive} (h : p.powered = true → DriveLegal p → DriveLegal (p.withDrive d)) :
    Steady p (p.withDrive d) := ⟨rfl, rfl, rfl, rfl, rfl, rfl, h⟩

theorem Runs.refl (p : Part) : Runs p p := ⟨.refl p, rfl, rfl, rfl, rfl, rfl, .inl rfl⟩

theorem Runs.trans (h1 : Runs p q) (h2 : Runs q r) : Runs p r where
  steady := h1.steady.trans h2.steady
  ground := h2.ground.trans h1.ground
  queue := h2.queue.trans h1.queue
  current := h2.current.trans h1.current
  values := h2.values.trans h1.values
  causes := h2.causes.trans h1.causes
  phase := by
    rcases h2.phase with h | h
    · rw [h]; exact h1.phase
    · exact .inr h

theorem Runs.after (h2 : Runs q r) (h1 : Runs p q) : Runs p r := h1.trans h2

/-- A change of the controller that keeps its current sleeper, its values and its causes. -/
theorem runs_withCycle {c : Cycle} (hmotion : c.motion = p.cycle.motion) (hcur : c.current = p.cycle.current)
    (hval : c.values = p.cycle.values) (hcause : c.causes = p.cycle.causes)
    (hphase : c.phase = p.cycle.phase ∨ InCyclePhase c.phase = true) : Runs p (p.withCycle c) :=
  ⟨steady_withCycle hmotion, rfl, rfl, hcur, hval, hcause, hphase⟩

/-- A change of the drive. -/
theorem runs_withDrive {d : Drive} (h : p.powered = true → DriveLegal p → DriveLegal (p.withDrive d)) :
    Runs p (p.withDrive d) := ⟨steady_withDrive h, rfl, rfl, rfl, rfl, rfl, .inl rfl⟩

/-! ### The drive (chapter 8) -/

theorem updateAxis_runs (p : Part) (x : Axis) : Runs p (updateAxis p x).1 := by
  unfold updateAxis
  simp only
  split
  · next htakes =>
    refine runs_withDrive fun hpower h => ?_
    have hs : (p.drive.axes.get x).started = true := (takesUpdates_iff.1 htakes).1
    obtain ⟨_, hline⟩ := estop_of_started hpower h hs
    refine driveLegal_of_axes hpower hline fun y => ?_
    show AxisLegal y (PerAxis.get (p.drive.axes.set x _) y)
    rw [PerAxis.get_set]
    split
    · next hy => subst hy; exact axisLegal_updatedAxis _ hs
    · exact h.1 y
  · exact .refl p

theorem expireMove_runs (p : Part) (x : Axis) : Runs p (expireMove p x).1 := by
  unfold expireMove
  simp only
  split
  · next ms htimer =>
    refine runs_withDrive fun hpower h => ?_
    have hs : (p.drive.axes.get x).started = true := by
      by_contra hs
      rw [(h.1 x).2.2.2.2 (by simpa using hs)] at htimer
      cases htimer
    obtain ⟨_, hline⟩ := estop_of_started hpower h hs
    refine driveLegal_of_axes hpower hline fun y => ?_
    show AxisLegal y (PerAxis.get (p.drive.axes.set x _) y)
    rw [PerAxis.get_set]
    split
    · next hy =>
      subst hy
      split
      · exact axisLegal_of_demand rfl hs
      · next hm => exact axisLegal_of_demand ((h.1 y).2.2.2.1 hm) hs
    · exact h.1 y
  · exact .refl p

theorem moveStart_runs (p : Part) (t : Targets) : Runs p (moveStart p t).1 := by
  have rested : Runs p (p.withDrive (restAxes p.drive)) := runs_withDrive fun _ h =>
    ⟨fun y => by cases y <;> exact axisLegal_rest _, fun hc => ⟨fun y => by cases y <;> rfl, (h.2 hc).2.1, rfl⟩⟩
  have moved : ∀ q : Part, q.lines.estop = false → Runs q (movedPart q t) := fun q hline =>
    runs_withDrive fun hpower _ => driveLegal_of_axes hpower hline fun y => by
      show AxisLegal y (PerAxis.get (PerAxis.make (startedAxis q t)) y)
      rw [PerAxis.get_make]
      exact axisLegal_startedAxis t
  cases hline : p.lines.estop with
  | true => rw [moveStart_asserted hline]; exact .refl p
  | false =>
    cases hrelease : p.drive.releaseTimer with
    | none =>
      cases hstarted : p.drive.anyStarted with
      | true => rw [moveStart_started hline hrelease hstarted]; exact .refl p
      | false => rw [moveStart_rested hline hrelease hstarted]; exact moved p hline
    | some ms =>
      rw [moveStart_releasing hline (by simp [hrelease]), moveStart_rested (p := p.withDrive (restAxes p.drive)) hline rfl rfl]
      exact rested.trans (moved _ hline)

/-- R140, R141: a drive with an axis started that holds its axes. -/
theorem runs_held (clamp : Bool) (timer : Option Int) (hs : p.drive.anyStarted = true) :
    Runs p (p.withDrive { axes := p.drive.axes.map heldAxis, clampEngaged := clamp, releaseTimer := timer }) := by
  refine runs_withDrive fun hpower h => ?_
  obtain ⟨x, hx⟩ := (anyStarted_iff p.drive).1 hs
  refine driveLegal_of_axes hpower (estop_of_started hpower h hx).2 fun y => ?_
  show AxisLegal y ((p.drive.axes.map heldAxis).get y)
  rw [PerAxis.get_map]
  exact axisLegal_heldAxis (h.1 y)

theorem holdDrive_runs (p : Part) : Runs p (holdDrive p) := by
  unfold holdDrive
  split
  · next hc => exact runs_held true _ (by simp_all)
  · exact .refl p

theorem releaseDrive_runs (p : Part) : Runs p (releaseDrive p) := by
  unfold releaseDrive
  split
  · next hc => exact runs_held false _ (by simp_all)
  · exact .refl p

theorem endRelease_runs (p : Part) : Runs p (endRelease p).1 := runs_withDrive fun _ h =>
  ⟨fun y => by cases y <;> exact axisLegal_rest _, fun hc => ⟨fun y => by cases y <;> rfl, (h.2 hc).2.1, rfl⟩⟩

/-! ### The phases of a cycle (section 9.4) -/

theorem enterReleasing_runs (p : Part) : Runs p (enterReleasing p) :=
  (releaseDrive_runs _).after (runs_withCycle rfl rfl rfl rfl (.inr rfl))

theorem endSqueezeOf_runs (which : TampUnit → Bool) (timed : Bool) (p : Part) : Runs p (endSqueezeOf which timed p) :=
  runs_withCycle rfl rfl rfl rfl (.inl rfl)

section
variable {penetrate : Part → Part} (hpen : ∀ q, Runs q (penetrate q))
include hpen

theorem endRaise_runs (p : Part) : Runs p (endRaise penetrate p) := by
  have cleared : Runs p (p.withCycle { p.cycle with vertical := noVertical, phaseTimer := none }) :=
    runs_withCycle rfl rfl rfl rfl (.inl rfl)
  unfold endRaise
  simp only
  split
  · exact cleared.trans (hpen _)
  · exact cleared.trans (enterReleasing_runs _)

theorem enterRaisingWith_runs (p : Part) : Runs p (enterRaisingWith penetrate p) := by
  have raising : Runs p (p.withCycle { p.cycle with
      phase := .raising, squeeze := noSqueeze, phaseTimer := some .raise, vertical := raiseDemands p }) :=
    runs_withCycle rfl rfl rfl rfl (.inr rfl)
  unfold enterRaisingWith
  simp only
  split
  · exact raising.trans (endRaise_runs hpen _)
  · exact raising

theorem endSqueezing_runs (p : Part) : Runs p (endSqueezing penetrate p) :=
  (enterRaisingWith_runs hpen _).after (runs_withCycle rfl rfl rfl rfl (.inl rfl))

theorem afterSqueeze_runs (p : Part) : Runs p (afterSqueeze penetrate p) := by
  unfold afterSqueeze
  split
  · exact endSqueezing_runs hpen p
  · exact .refl p

theorem enterSqueezingWith_runs (p : Part) : Runs p (enterSqueezingWith penetrate p) :=
  ((afterSqueeze_runs hpen _).after (endSqueezeOf_runs _ _ _)).after (runs_withCycle rfl rfl rfl rfl (.inr rfl))

theorem afterDepth_runs (p : Part) : Runs p (afterDepth penetrate p) := by
  unfold afterDepth
  split
  · exact enterSqueezingWith_runs hpen p
  · exact .refl p
end

theorem reachDepthOf_runs (which : TampUnit → Bool) (p : Part) : Runs p (reachDepthOf which p) :=
  runs_withCycle rfl rfl rfl rfl (.inl rfl)

theorem penetrateBy_runs (n : Nat) : ∀ p, Runs p (penetrateBy n p) := by
  induction n with
  | zero => exact Runs.refl
  | succ n ih =>
    intro p
    exact ((afterDepth_runs ih _).after (reachDepthOf_runs _ _)).after (runs_withCycle rfl rfl rfl rfl (.inr rfl))

theorem enterPenetrating_runs (p : Part) : Runs p (enterPenetrating p) := penetrateBy_runs _ p
theorem enterSqueezing_runs (p : Part) : Runs p (enterSqueezing p) := enterSqueezingWith_runs enterPenetrating_runs p
theorem enterRaising_runs (p : Part) : Runs p (enterRaising p) := enterRaisingWith_runs enterPenetrating_runs p

theorem endFolding_runs (p : Part) : Runs p (endFolding p) := by
  have ended : Runs p (p.withCycle { p.cycle with folding := .ended, phaseTimer := none }) :=
    runs_withCycle rfl rfl rfl rfl (.inl rfl)
  unfold endFolding
  simp only
  split
  · exact ended.trans (enterPenetrating_runs _)
  · exact ended.trans (enterReleasing_runs _)

theorem confirmUnits_runs (p : Part) : Runs p (confirmUnits p) := by
  have confirmed : ∀ units, Runs p (p.withCycle { p.cycle with units := units }) := fun _ =>
    runs_withCycle rfl rfl rfl rfl (.inl rfl)
  unfold confirmUnits
  simp only
  split
  · exact confirmed _
  · exact (confirmed _).trans (endFolding_runs _)

theorem beginFolding_runs (p : Part) : Runs p (beginFolding p) :=
  (confirmUnits_runs _).after (runs_withCycle rfl rfl rfl rfl (.inl rfl))

theorem positioned_runs (p : Part) : Runs p (positioned p) := by
  unfold positioned
  split
  · exact (holdDrive_runs p).trans (beginFolding_runs _)
  · exact .refl p

theorem giveMoveStart_runs (p : Part) (n : Nat) : Runs p (giveMoveStart p n) := by
  unfold giveMoveStart
  split
  · exact .refl p
  · next t _ =>
    have hmoved := moveStart_runs p t
    split
    · next q hq => rw [hq] at hmoved; exact hmoved.trans (positioned_runs q)
    · next q hq => rw [hq] at hmoved; exact hmoved

theorem afterLockoutDepth_runs (p : Part) : Runs p (afterLockoutDepth p) := by
  unfold afterLockoutDepth
  split
  · exact runs_withCycle rfl rfl rfl rfl (.inl rfl)
  · exact .refl p

theorem startLockoutRaise_runs (p : Part) : Runs p (startLockoutRaise p) :=
  (afterLockoutDepth_runs _).after (runs_withCycle rfl rfl rfl rfl (.inl rfl))

/-! ### Samples -/

theorem depthSample_runs (u : TampUnit) (p : Part) : Runs p (depthSample u p) := by
  unfold depthSample
  split
  · exact (reachDepthOf_runs _ p).trans (afterDepth_runs enterPenetrating_runs _)
  · split
    · have clear : ∀ units vertical, Runs p (p.withCycle { p.cycle with units := units, vertical := vertical }) :=
        fun _ _ => runs_withCycle rfl rfl rfl rfl (.inl rfl)
      simp only
      split
      · exact (clear _ _).trans (endRaise_runs enterPenetrating_runs _)
      · exact clear _ _
    · exact .refl p
  · refine .trans ?_ (afterLockoutDepth_runs _)
    split
    · exact runs_withCycle rfl rfl rfl rfl (.inl rfl)
    · exact .refl p
  · exact .refl p

theorem pressureSample_runs (ch : Channel) (p : Part) : Runs p (pressureSample ch p) := by
  unfold pressureSample
  split
  · exact (endSqueezeOf_runs _ _ p).trans (afterSqueeze_runs enterPenetrating_runs _)
  · exact .refl p

theorem driveSample_runs (ch : Channel) (p : Part) : Runs p (driveSample ch p) := by
  unfold driveSample
  split
  · exact .refl p
  · next x _ =>
    have hupdated := updateAxis_runs p x
    split
    · next q hq => rw [hq] at hupdated; exact hupdated.trans (positioned_runs q)
    · next q hq => rw [hq] at hupdated; exact hupdated

theorem cycleSample_runs (ch : Channel) (p : Part) : Runs p (cycleSample ch p) := by
  unfold cycleSample
  split
  · exact depthSample_runs _ p
  · split
    · exact pressureSample_runs ch p
    · exact .refl p

end

end Sys2Proof.Machine
end

section
/-! PROOF. The chainage stays in range, the motion state is the same wherever it is held, and the drive stays within its limits
(R6, R7, R131, R135, R144), second part: the queue, the starts and the stops of a cycle, and the commands. -/

namespace Sys2Proof.Machine
open Sys2Proof Sys2Proof.Safety

/-! ### The sleeper queue (chapter 3) -/

section
variable {p q : Part}

theorem testStopPoint_steady (p : Part) : Steady p (testStopPoint p) :=
  steady_of_offQueue (testStopPoint_offQueue p) (by rw [testStopPoint_queue])

/-- A change of the queue that keeps its motion state. -/
theorem steady_withQueue {u : Queue} (h : u.motion = p.queue.motion) : Steady p { p with queue := u } :=
  steady_of_offQueue rfl h

theorem Steady.after {r : Part} (h2 : Steady q r) (h1 : Steady p q) : Steady p r := h1.trans h2

theorem renewInPosition_steady (p : Part) : Steady p (renewInPosition p).1 := steady_withQueue rfl

theorem passRecord_steady (p : Part) (n : Nat) : Steady p (passRecord p n) := by
  unfold passRecord
  split
  · exact .refl p
  · split
    · exact (testStopPoint_steady _).after (steady_withQueue rfl)
    · exact .refl p

theorem passRecords_steady (p : Part) : Steady p (passRecords p) := by
  have passed : ∀ (ns : List Nat) (q : Part), Steady q (ns.foldl passRecord q) := by
    intro ns
    induction ns with
    | nil => exact Steady.refl
    | cons n ns ih => exact fun q => (passRecord_steady q n).trans (ih _)
  exact passed _ p

theorem haltStep_steady (p : Part) (r : SleeperRecord) : Steady p (haltStep p r) := by
  unfold haltStep
  split
  · exact (steady_of_offPort (handHalt_offPort _ _)).after (steady_withQueue rfl)
  · exact .refl p

theorem recordCandidate_steady (p : Part) (c : Candidate) : Steady p (recordCandidate p c) := by
  unfold recordCandidate
  simp only
  split
  · exact steady_of_offPort (handEvent_offPort p _)
  · refine (testStopPoint_steady _).after ((renewInPosition_steady _).after ((passRecord_steady _ _).after
      ((haltStep_steady _ _).after ?_)))
    exact steady_withQueue rfl

theorem startRecord_steady (p : Part) (n : Nat) : Steady p (startRecord p n) := by
  unfold startRecord
  split
  · exact .refl p
  · exact steady_withQueue rfl

theorem finishRecord_steady (p : Part) (n : Nat) (st : RecordState) (c : Option FailureCause) (r : Option CycleResult) :
    Steady p (finishRecord p n st c r) := (testStopPoint_steady _).after (steady_withQueue rfl)

theorem putBackRecord_steady (p : Part) (n : Nat) : Steady p (putBackRecord p n) := by
  unfold putBackRecord
  split
  · exact .refl p
  · exact (testStopPoint_steady _).after (steady_withQueue rfl)

theorem takeCell_steady (lines : ScanLines) (p : Part) (x : Int) : Steady p (takeCell lines p x) := by
  have scanned : ∀ sc : Scanner, Steady p { p with scanner := sc } := fun _ => steady_of_offScanner rfl rfl
  unfold takeCell
  simp only
  split
  · exact scanned _
  · exact (scanned _).trans (recordCandidate_steady _ _)

theorem scannerAdvance_steady (lines : ScanLines) (p : Part) : Steady p (scannerAdvance lines p) := by
  have cells : ∀ (xs : List Int) (q : Part), Steady q (xs.foldl (takeCell lines) q) := by
    intro xs
    induction xs with
    | nil => exact Steady.refl
    | cons x xs ih => exact fun q => (takeCell_steady lines q x).trans (ih _)
  unfold scannerAdvance
  split
  · simp only
    split
    · exact (cells _ _).after (steady_of_offScanner rfl rfl)
    · exact .refl p
  · exact .refl p

/-! ### Starting a cycle (section 9.3) -/

theorem beginCycle_steady (p : Part) (r : SleeperRecord) : Steady p (beginCycle p r) := by
  refine (testStopPoint_steady _).after (.after (q := writeTargets (startRecord p r.number) r.number) (steady_withCycle rfl) ?_)
  exact (startRecord_steady p r.number).trans (steady_withQueue rfl)

theorem startCycle_steady (p : Part) (r : SleeperRecord) : Steady p (startCycle p r) :=
  (beginCycle_steady p r).trans (giveMoveStart_runs _ _).steady

theorem startEvent_steady (p : Part) : Steady p (startEvent p) := by
  unfold startEvent
  split
  · exact .refl p
  · split
    · exact .refl p
    · split
      · exact startCycle_steady p _
      · exact .refl p

theorem renewAndStart_steady (p : Part) : Steady p (renewAndStart p) := by
  have renewed := renewInPosition_steady p
  unfold renewAndStart
  split
  · next q hq => rw [hq] at renewed; exact renewed.trans (startEvent_steady q)
  · next q hq => rw [hq] at renewed; exact renewed

/-! ### Stops, faults and lockout (sections 9.5 and 9.6) -/

theorem addCause_steady (p : Part) (c : Cause) (n : Option Nat) : Steady p (addCause p c n) := by
  unfold addCause
  split
  · exact .refl p
  · exact (steady_of_offPort (handEvent_offPort _ _)).after (steady_withCycle rfl)

theorem enterLockout_steady (p : Part) (c : Cause) (n : Option Nat) : Steady p (enterLockout p c n) :=
  (steady_of_offPort (handEvent_offPort _ _)).after (steady_withCycle rfl)

theorem failCurrent_steady (p : Part) (c : FailureCause) : Steady p (failCurrent p c) := by
  unfold failCurrent
  split
  · exact .refl p
  · exact finishRecord_steady p _ _ _ _

theorem dropCurrent_steady (p : Part) : Steady p (dropCurrent p) := steady_withCycle rfl

theorem putBackCurrent_steady (p : Part) : Steady p (putBackCurrent p) := by
  unfold putBackCurrent
  split
  · exact .refl p
  · exact (putBackRecord_steady p _).trans (renewInPosition_steady _)

/-- R164: a fault of the running cycle, from the part with its outputs set. -/
theorem faulted_steady (p : Part) (cause : FailureCause) (c : Cause) (n : Option Nat) :
    Steady p (enterLockout (dropCurrent (failCurrent (releaseDrive p) cause)) c n) :=
  (releaseDrive_runs p).steady.trans ((failCurrent_steady _ cause).trans
    ((dropCurrent_steady _).trans (enterLockout_steady _ c n)))

theorem travelFault_steady (p : Part) : Steady p (travelFault p) :=
  (faulted_steady _ _ _ _).after ((startLockoutRaise_runs _).steady.after (steady_withCycle rfl))

theorem stuckFault_steady (p : Part) : Steady p (stuckFault p) := (faulted_steady _ _ _ _).after (steady_withCycle rfl)

theorem abandonCycle_steady (p : Part) : Steady p (abandonCycle p) := by
  have dropped : ∀ q : Part, Steady q ((dropCurrent q).withCycle { (dropCurrent q).cycle with phase := .idle }) := fun _ =>
    steady_withCycle rfl
  exact (dropped _).after ((putBackCurrent_steady _).after ((releaseDrive_runs _).steady.after (steady_withCycle rfl)))

theorem cycleMoving_steady (p : Part) : Steady p (cycleMoving p) := by
  have requested : Steady p (p.withCycle { p.cycle with stopRequested := .travelFault }) := steady_withCycle rfl
  have stopped : Steady p (if allClear p then enterRaising (p.withCycle { p.cycle with stopRequested := .travelFault })
      else travelFault p) := by
    split
    · exact requested.trans (enterRaising_runs _).steady
    · exact travelFault_steady p
  unfold cycleMoving
  split
  · exact .refl p
  · exact abandonCycle_steady p
  · exact stopped
  · exact stopped
  · split
    · exact requested
    · exact travelFault_steady p
  · split
    · exact .refl p
    · exact travelFault_steady p
  · split
    · exact .refl p
    · simp only
      split
      · exact (addCause_steady p _ _).trans (startLockoutRaise_runs _).steady
      · exact addCause_steady p _ _

theorem stopCycle_steady (p : Part) : Steady p (stopCycle p) := by
  have requested : Steady p (p.withCycle { p.cycle with stopRequested := .stopped }) := steady_withCycle rfl
  have stopped : Steady p (if p.cycle.stopRequested = .none then
      enterRaising (p.withCycle { p.cycle with stopRequested := .stopped }) else p) := by
    split
    · exact requested.trans (enterRaising_runs _).steady
    · exact .refl p
  unfold stopCycle
  split
  · exact abandonCycle_steady p
  · exact stopped
  · exact stopped
  · split
    · exact requested
    · exact .refl p
  · exact .refl p

theorem cycleReleaseEnd_steady (p : Part) (residuals : PerAxis (Option Int)) : Steady p (cycleReleaseEnd p residuals) := by
  have dropped : ∀ q : Part, Steady q ((dropCurrent q).withCycle { (dropCurrent q).cycle with phase := .idle }) := fun _ =>
    steady_withCycle rfl
  unfold cycleReleaseEnd
  split
  · simp only
    cases p.cycle.current with
    | none => exact dropped p
    | some n => exact (finishRecord_steady p n _ _ _).trans (dropped _)
  · exact .refl p

/-- R144, R165: the part with every output and the drive at rest, as the assertion of the line first leaves it. -/
def outputsRested (p : Part) : Part := stopDrive (p.withCycle { p.cycle with
  vertical := noVertical, squeeze := noSqueeze, fold := noArms, phaseTimer := none, lockoutRaise := false })

/-- R165: the record in cycle at the assertion of the line, FAILED or put back. -/
def estopRecord (p : Part) : Part :=
  if p.cycle.penetrationBegun then failCurrent (outputsRested p) .estop else putBackCurrent (outputsRested p)

theorem cycleEstop_eq (p : Part) : cycleEstop p =
    if (estopRecord p).cycle.phase = .lockout then addCause (dropCurrent (estopRecord p)) .estop none
    else enterLockout (dropCurrent (estopRecord p)) .estop p.cycle.current := by
  unfold cycleEstop
  simp only [decide_eq_true_eq]
  rfl

theorem outputsRested_atRest (p : Part) : (outputsRested p).drive.AtRest := ⟨fun x => by cases x <;> rfl, rfl, rfl⟩

theorem cycleEstop_steady (p : Part) : Steady (outputsRested p) (cycleEstop p) := by
  have hrecord : Steady (outputsRested p) (estopRecord p) := by
    unfold estopRecord
    split
    · exact failCurrent_steady _ _
    · exact putBackCurrent_steady _
  rw [cycleEstop_eq]
  split
  · exact hrecord.trans ((dropCurrent_steady _).trans (addCause_steady _ _ _))
  · exact hrecord.trans ((dropCurrent_steady _).trans (enterLockout_steady _ _ _))

/-! ### The laws of the travel counter and the drive -/

/-- The travel counter and the drive are legal. -/
def TravelAndDrive (p : Part) : Prop := TravelLegal p ∧ DriveLegal p

theorem TravelLegal.congr (hp : TravelLegal p) (ht : q.travel = p.travel)
    (hpitch : q.store.working.pitch = p.store.working.pitch) (hqueue : q.queue.motion = p.queue.motion)
    (hcycle : q.cycle.motion = p.cycle.motion) : TravelLegal q := by
  unfold TravelLegal
  rw [chainageC_congr ht hpitch, ht, hqueue, hcycle]
  exact hp

theorem Steady.travelAndDrive (h : Steady p q) (hpower : p.powered = true) (hp : TravelAndDrive p) : TravelAndDrive q :=
  ⟨TravelLegal.congr hp.1 h.travel h.pitch h.queueMotion h.cycleMotion, h.drive hpower hp.2⟩

/-- Outside the motion state, the travel counter is legal with C in range. -/
theorem TravelLegal.moved (hp : TravelLegal p) (hx : inChainageRange (chainageC q) = true)
    (hnone : q.travel.originState = .none → q.travel.pulses = 0) (hm : q.travel.motion = p.travel.motion)
    (htimer : q.travel.standstillTimer = p.travel.standstillTimer) (hqueue : q.queue.motion = p.queue.motion)
    (hcycle : q.cycle.motion = p.cycle.motion) : TravelLegal q := by
  unfold TravelLegal
  rw [hm, htimer, hqueue, hcycle]
  exact ⟨hx, hnone, hp.2.2⟩

theorem travelAndDrive_afterReset (st : Store) (lines : Lines) : TravelAndDrive (.afterReset st lines) :=
  ⟨⟨rfl, fun _ => rfl, ⟨nofun, nofun⟩, rfl, rfl⟩, driveLegal_of_atRest ⟨fun x => by cases x <;> rfl, rfl, rfl⟩⟩

theorem travelAndDrive_unpowered (left : NvCopy) : TravelAndDrive (unpowered p left) :=
  ⟨⟨rfl, fun _ => rfl, ⟨nofun, nofun⟩, rfl, rfl⟩, driveLegal_of_atRest ⟨fun x => by cases x <;> rfl, rfl, rfl⟩⟩

/-! ### Requests -/

/-- With no pulses counted C stands at the origin, whatever the pitch. -/
theorem chainageOf_zero (t : Travel) (pitch : Int) : chainageOf t pitch 0 = t.origin := by
  simp [chainageOf, roundDiv]

/-- R9: the travel counter with a new origin and the queue without records, as ORIGIN SET first leaves them. -/
def originPlaced (p : Part) (origin : Int) (d : Direction) : Part :=
  { p with
    travel := { p.travel with
      origin := origin, direction := d, pulses := 0, highLimit := false, lowLimit := false, originState := .set }
    queue := { p.queue with records := [], latch := none } }

theorem setOrigin_eq (p : Part) (origin : Int) (d : Direction) :
    setOrigin p origin d = renewAndStart (testStopPoint { originPlaced p origin d with
      scanner := scannerReset p.scanner (scannerPoint (originPlaced p origin d)) }) := rfl

/-- R9: C stands at the origin that is set. -/
theorem setOrigin_travelAndDrive {origin : Int} {d : Direction} (hpower : p.powered = true)
    (horigin : inChainageRange origin = true) (hp : TravelAndDrive p) : TravelAndDrive (setOrigin p origin d) := by
  have placed : TravelAndDrive (originPlaced p origin d) := by
    refine ⟨TravelLegal.moved hp.1 ?_ (fun h => by cases h) rfl rfl rfl rfl, hp.2⟩
    rw [chainageC_set rfl]
    exact (congrArg inChainageRange (chainageOf_zero _ _)).trans horigin
  have hsteady : Steady (originPlaced p origin d) (setOrigin p origin d) := by
    rw [setOrigin_eq]
    exact (renewAndStart_steady _).after ((testStopPoint_steady _).after (steady_of_offScanner rfl rfl))
  exact hsteady.travelAndDrive hpower placed

theorem moveScanFront_steady (p : Part) : Steady p (moveScanFront p) := by
  unfold moveScanFront
  split
  · exact .refl p
  · exact steady_of_offScanner rfl rfl

theorem passToSupervisor_steady (p : Part) (old new : Int) : Steady p (passToSupervisor p old new) := by
  unfold passToSupervisor
  split
  · exact .refl p
  · exact steady_of_offPort rfl

theorem passFromPart_steady (p : Part) (old new : Int) : Steady p (passFromPart p old new) := by
  unfold passFromPart
  split
  · exact steady_of_offPort rfl
  · exact .refl p

/-- R10: a pitch can be put into the re-based part, since C then stands at the origin, or at 0 without one. -/
theorem rebase_withStore {st : Store} (hp : TravelAndDrive p) : TravelAndDrive { rebase p with store := st } := by
  obtain ⟨ht, hd⟩ := hp
  unfold rebase
  split
  · next hnone =>
    refine ⟨TravelLegal.moved ht ?_ ht.2.1 rfl rfl rfl rfl, hd⟩
    rw [chainageC_none (p := { p with store := st }) hnone]
    decide
  · next hset =>
    refine ⟨TravelLegal.moved ht ?_ (fun _ => rfl) rfl rfl rfl rfl, hd⟩
    refine (congrArg inChainageRange (chainageC_set ?_)).trans ?_
    · exact hset
    · exact (congrArg inChainageRange (chainageOf_zero _ _)).trans ht.1

theorem withStore_travelAndDrive {st : Store} (hpitch : st.working.pitch = p.store.working.pitch) (hp : TravelAndDrive p) :
    TravelAndDrive { p with store := st } := ⟨TravelLegal.congr hp.1 rfl hpitch rfl rfl, hp.2⟩

theorem writeSetting_travelAndDrive {id : SettingId} {v : Int} (hpower : p.powered = true) (hp : TravelAndDrive p) :
    TravelAndDrive (writeSetting p id v) := by
  by_cases hid : id = .pitch
  · subst hid
    have hrebased := rebase_withStore (st := { (rebase p).store with working := p.store.working.set .pitch v }) hp
    exact hrebased
  · have written : TravelAndDrive (p.withWorking (p.store.working.set id v)) :=
      withStore_travelAndDrive ((Settings.get_set p.store.working id .pitch v).trans (if_neg fun h => hid h.symm)) hp
    cases id with
    | pitch => exact absurd rfl hid
    | scannerOffset => exact (moveScanFront_steady _).travelAndDrive hpower written
    | positionTolerance => exact (renewAndStart_steady _).travelAndDrive hpower written
    | supervisorNode => exact (passToSupervisor_steady _ _ _).travelAndDrive hpower written
    | partNode => exact (passFromPart_steady _ _ _).travelAndDrive hpower written
    | _ => exact written

/-- R200: the part with the new record but the old part node, re-based where the pitch changes, as a load first leaves it. -/
def adopted (p : Part) (new : Settings) : Part :=
  if new.pitch = p.store.working.pitch then
    { p with store := { p.store with working := { new with partNode := p.store.working.partNode }, status := .loaded } }
  else
    { rebase p with
      store := { p.store with working := { new with partNode := p.store.working.partNode }, status := .loaded } }

/-- R200: what a load makes of the part with the new record. -/
theorem adoptSettings_eq (p : Part) (new : Settings) : adoptSettings p new =
    let old := p.store.working
    let moved := if new.scannerOffset = old.scannerOffset then adopted p new else moveScanFront (adopted p new)
    let passed := passFromPart (passToSupervisor moved old.supervisorNode new.supervisorNode) old.partNode new.partNode
    let q := if new.positionTolerance = old.positionTolerance then passed else renewAndStart passed
    q.withWorking { q.store.working with partNode := new.partNode } := by
  have hstore : (rebase p).store = p.store := congrArg (fun x => x.2.1) (rebase_registers p)
  unfold adoptSettings adopted
  by_cases hpitch : new.pitch = p.store.working.pitch
  · simp only [if_pos hpitch]
  · simp only [if_neg hpitch, hstore]

theorem adoptSettings_travelAndDrive {new : Settings} (hpower : p.powered = true) (hp : TravelAndDrive p) :
    TravelAndDrive (adoptSettings p new) := by
  have adopted : TravelAndDrive (adopted p new) := by
    unfold Machine.adopted
    split
    · next hpitch => exact withStore_travelAndDrive hpitch hp
    · exact rebase_withStore hp
  have moved : ∀ q : Part,
      Steady q (if new.scannerOffset = p.store.working.scannerOffset then q else moveScanFront q) := by
    intro q
    split
    · exact .refl q
    · exact moveScanFront_steady q
  have renewed : ∀ q : Part,
      Steady q (if new.positionTolerance = p.store.working.positionTolerance then q else renewAndStart q) := by
    intro q
    split
    · exact .refl q
    · exact renewAndStart_steady q
  have hpower' : (Machine.adopted p new).powered = true := by
    unfold Machine.adopted
    split
    · exact hpower
    · unfold rebase; split <;> exact hpower
  rw [adoptSettings_eq]
  refine withStore_travelAndDrive rfl (Steady.travelAndDrive ?_ hpower' adopted)
  exact (renewed _).after ((passFromPart_steady _ _ _).after ((passToSupervisor_steady _ _ _).after (moved _)))

theorem setMode_steady (p : Part) (m : Mode) : Steady p (setMode p m) := by
  have set : Steady p (p.withCycle { p.cycle with mode := m }) := steady_withCycle rfl
  unfold setMode
  split
  · exact set.trans (startEvent_steady _)
  · exact set

theorem markSkip_steady (p : Part) (n : Nat) (c : Option SkipCause) : Steady p (markSkip p n c) :=
  (testStopPoint_steady _).after (steady_withQueue rfl)

theorem rearmLatch_steady (p : Part) (h : Nat) : Steady p (rearmLatch p h) := by
  unfold rearmLatch
  split
  · exact steady_withQueue rfl
  · exact (steady_of_offPort (handHalt_offPort _ _)).after (steady_withQueue rfl)

theorem raiseUnits_steady (p : Part) : Steady p (raiseUnits p) := by
  unfold raiseUnits
  split
  · exact steady_withCycle rfl
  · exact (startLockoutRaise_runs p).steady

/-- What a block decides keeps the travel counter and the drive legal. -/
theorem Decided.travelAndDrive {r : Request} (h : Decided r p q) (hpower : p.powered = true) (hp : TravelAndDrive p) :
    TravelAndDrive q := by
  have steady : Steady p q → TravelAndDrive q := fun hs => hs.travelAndDrive hpower hp
  cases h with
  | originSet origin d horigin _ => exact setOrigin_travelAndDrive hpower horigin hp
  | settingWritten id v _ _ _ => exact writeSetting_travelAndDrive hpower hp
  | loaded _ _ _ _ => exact adoptSettings_travelAndDrive hpower hp
  | planRun i first start _ _ => exact steady (steady_of_offPlan (runContext_offPlan p i first start))
  | planWoken i _ => exact steady (steady_of_offPlan (wakeContext_offPlan p i))
  | planStopped i _ => exact steady (steady_of_offPlan (stopContext_offPlan p i))
  | skipMarked n c => exact steady (markSkip_steady p n c)
  | skipCleared n => exact steady ((markSkip_steady p n none).trans (startEvent_steady _))
  | haltCleared l _ =>
    exact steady ((rearmLatch_steady p l).trans ((testStopPoint_steady _).trans (startEvent_steady _)))
  | modeSet m => exact steady (setMode_steady p m)
  | cycleStarted x _ => exact steady (startCycle_steady p x)
  | cycleStopped => exact steady (stopCycle_steady p)
  | unitsRaised _ _ => exact steady (raiseUnits_steady p)
  | clearedInIdle _ => exact steady (startEvent_steady p)
  | lockoutCleared _ _ _ => exact steady ((startEvent_steady _).after (steady_withCycle rfl))
  | _ => exact hp

/-! ### Samples and pulses -/

theorem settle_steady (p : Part) : Steady p (settle p) := by
  unfold settle
  simp only
  refine .after (steady_of_offPort (afterHandOn_offPort _)) ?_
  split
  · exact steady_of_drive_eq rfl rfl rfl rfl rfl rfl rfl
  · exact steady_of_drive_eq rfl rfl rfl rfl rfl rfl rfl

theorem sampleEvent_steady (ch : Channel) (level : Int) (p : Part) : Steady p (sampleEvent ch level p) := by
  have recorded : Steady p (recordSample p ch level) := steady_of_drive_eq rfl rfl rfl rfl rfl rfl rfl
  have taken := recorded.trans ((driveSample_runs ch _).steady.trans (cycleSample_runs ch _).steady)
  unfold sampleEvent
  simp only
  split
  · exact taken.trans (settle_steady _)
  · exact taken

theorem blocksTakeStep_steady (lines : ScanLines) (dir : Move) (p : Part) : Steady p (blocksTakeStep lines dir p) := by
  cases dir with
  | backward => exact renewAndStart_steady p
  | forward =>
    exact (scannerAdvance_steady lines p).trans ((passRecords_steady _).trans ((renewAndStart_steady _).trans
      ((steady_of_offPlan (contextAdvance_offPlan _ .h)).trans (steady_of_offPlan (contextAdvance_offPlan _ .v)))))

/-- R6: a pulse is counted only where C stays in range. -/
theorem movePulse_travelAndDrive (lines : ScanLines) (dir : Move) (hpower : p.powered = true) (hp : TravelAndDrive p) :
    TravelAndDrive (movePulse lines dir p) := by
  unfold movePulse
  split
  · exact hp
  · next hset =>
    simp only
    split
    · next hrange =>
      have stepped : TravelAndDrive (stepPulses p (pulsesAfter p dir)) := by
        refine ⟨TravelLegal.moved hp.1 ?_ (fun h => ?_) rfl rfl rfl rfl, hp.2⟩
        · exact (congrArg inChainageRange (chainageC_set (p := stepPulses p (pulsesAfter p dir)) hset)).trans hrange
        · rw [show p.travel.originState = _ from h] at hset
          cases hset
      exact (blocksTakeStep_steady lines dir _).travelAndDrive hpower stepped
    · rcases refusePulse_cases p (decide (maxChainage < chainageOf p.travel p.store.working.pitch (pulsesAfter p dir)))
        with h | ⟨high, low, e, h⟩ <;> rw [h]
      · exact hp
      · have flagged : TravelAndDrive (p.withTravel { p.travel with highLimit := high, lowLimit := low }) :=
          ⟨TravelLegal.moved hp.1 hp.1.1 hp.1.2.1 rfl rfl rfl rfl, hp.2⟩
        exact (steady_of_offPort (handEvent_offPort _ e)).travelAndDrive hpower flagged

/-- R7: the motion state is taken over everywhere it is held. -/
theorem setMotion_travelAndDrive {m : Motion} {t : Travel} (hx : t.origin = p.travel.origin ∧
    t.direction = p.travel.direction ∧ t.pulses = p.travel.pulses ∧ t.originState = p.travel.originState)
    (hm : m = .moving ↔ t.standstillTimer.isSome = true) (hp : TravelAndDrive p) :
    TravelAndDrive (setMotion (p.withTravel t) m) := by
  obtain ⟨hxo, hxd, hxp, hxs⟩ := hx
  have hc : chainageC (setMotion (p.withTravel t) m) = chainageC p := by
    unfold chainageC
    show (match t.originState with | .none => 0 | .set => chainageOf { t with motion := m } _ t.pulses) = _
    rw [hxs, hxp]
    unfold chainageOf
    rw [show ({ t with motion := m } : Travel).origin = _ from hxo, show ({ t with motion := m } : Travel).direction = _ from hxd]
    rfl
  refine ⟨⟨by rw [hc]; exact hp.1.1, fun h => hxp.trans (hp.1.2.1 (hxs.symm.trans h)), hm, rfl, rfl⟩, hp.2⟩

theorem takePulse_travelAndDrive (lines : ScanLines) (dir : Move) (hpower : p.powered = true) (hp : TravelAndDrive p) :
    TravelAndDrive (takePulse lines dir p) := by
  have hpulsed : TravelAndDrive (setMotion (p.withTravel { p.travel with
      lastMove := dir, standstillTimer := some p.store.working.standstillInterval }) .moving) :=
    setMotion_travelAndDrive ⟨rfl, rfl, rfl, rfl⟩ ⟨fun _ => rfl, fun _ => rfl⟩ hp
  unfold takePulse
  have hentered : (enterMoving (p.withTravel { p.travel with
      lastMove := dir, standstillTimer := some p.store.working.standstillInterval })).powered = true ∧
      TravelAndDrive (enterMoving (p.withTravel { p.travel with
        lastMove := dir, standstillTimer := some p.store.working.standstillInterval })) := by
    unfold enterMoving
    split
    · next hm =>
      refine ⟨hpower, ⟨?_, hp.1.2.1, ⟨fun _ => rfl, fun _ => hm⟩, hp.1.2.2.2⟩, hp.2⟩
      exact hp.1.1
    · exact ⟨(cycleMoving_steady _).powered.trans hpower, (cycleMoving_steady _).travelAndDrive hpower hpulsed⟩
  exact movePulse_travelAndDrive lines dir hentered.1 hentered.2

/-! ### Every command -/

theorem foundPart_steady (r : Request) (rest : List Request) : Steady p (foundPart p r rest) := by
  rw [foundPart_eq]
  exact steady_of_drive_eq rfl rfl rfl rfl rfl rfl rfl

theorem withLines_travelAndDrive {lines : Lines} (h : lines.estop = true → p.lines.estop = true) (hp : TravelAndDrive p) :
    TravelAndDrive { p with lines := lines } :=
  ⟨TravelLegal.congr hp.1 rfl rfl rfl rfl, hp.2.1, fun hc => hp.2.2 (hc.imp h id)⟩

/-- Every command keeps the travel counter and the drive legal. -/
theorem Effect.travelAndDrive (h : Effect p q) (hp : TravelAndDrive p) : TravelAndDrive q := by
  have steady : p.powered = true → Steady p q → TravelAndDrive q := fun hpower hs => hs.travelAndDrive hpower hp
  cases h with
  | powerOn _ => exact travelAndDrive_afterReset _ _
  | powerLoss left _ => exact travelAndDrive_unpowered left
  | linesSeen lines hpower =>
    exact ⟨TravelLegal.congr hp.1 rfl rfl rfl rfl, driveLegal_of_atRest (hp.2.2 (.inr hpower))⟩
  | reset _ => exact travelAndDrive_afterReset _ _
  | received r =>
    unfold offerRequest
    split <;> exact hp
  | sent m rest _ _ =>
    unfold sendHead
    split
    · exact travelAndDrive_afterReset _ _
    · exact hp
  | linkRestarted _ =>
    unfold restartLink
    split
    · exact travelAndDrive_afterReset _ _
    · exact hp
  | admitted source =>
    unfold admitInTurn
    split
    · exact ⟨TravelLegal.congr hp.1 (travel_of_ground (ground_of_offPort (admitSource_offPort p source)))
        (congrArg (fun st => st.working.pitch) (store_of_ground (ground_of_offPort (admitSource_offPort p source))))
        (congrArg Queue.motion (queue_of_offPort (admitSource_offPort p source)))
        (congrArg (fun x => x.2.2.1.motion) (admitSource_offPort p source)),
        DriveLegal.congr hp.2 (congrArg (fun x => x.2.1) (admitSource_offPort p source))
        (congrArg (fun x => x.1.lines.estop) (admitSource_offPort p source))
        (congrArg (fun x => x.1.powered) (admitSource_offPort p source))⟩
    · exact hp
  | sleeperDone x hpower _ _ =>
    exact steady hpower ((renewAndStart_steady _).after (steady_of_offQueue (acceptRecord_offQueue p x) rfl))
  | sample ch level hpower => exact steady hpower (sampleEvent_steady ch level p)
  | odometerSeen line1 line2 => exact withLines_travelAndDrive id hp
  | pulse line1 line2 dir lines hpower =>
    exact takePulse_travelAndDrive lines dir hpower (withLines_travelAndDrive id hp)
  | standstillIdle hm =>
    refine ⟨⟨hp.1.1, hp.1.2.1, ⟨fun h => ?_, fun h => by cases h⟩, hp.1.2.2.2⟩, hp.2⟩
    rw [show p.travel.motion = .moving from h] at hm
    cases hm
  | standstillEntered hpower _ =>
    exact (startEvent_steady _).travelAndDrive hpower
      (setMotion_travelAndDrive ⟨rfl, rfl, rfl, rfl⟩ ⟨nofun, nofun⟩ hp)
  | foldSeen arm folded => exact withLines_travelAndDrive id hp
  | foldConfirmed arm folded hpower _ _ =>
    exact (confirmUnits_runs _).steady.travelAndDrive hpower (withLines_travelAndDrive id hp)
  | estopAgain hpower hline => exact withLines_travelAndDrive (fun _ => hline) hp
  | estopAsserted hpower _ =>
    refine (cycleEstop_steady _).travelAndDrive hpower ?_
    exact ⟨TravelLegal.congr hp.1 rfl rfl rfl rfl, driveLegal_of_atRest (outputsRested_atRest _)⟩
  | estopReleased => exact withLines_travelAndDrive (fun h => by cases h) hp
  | moveExpired x hpower _ => exact steady hpower (expireMove_runs p x).steady
  | moveExpiredPositioned x hpower _ => exact steady hpower ((expireMove_runs p x).steady.trans (positioned_runs _).steady)
  | releaseEnded _ hpower _ => exact steady hpower ((endRelease_runs p).steady.trans (cycleReleaseEnd_steady _ _))
  | foldTimedOut hpower _ => exact steady hpower ((endFolding_runs _).steady.after (steady_withCycle rfl))
  | penetrationTimedOut hpower _ => exact steady hpower ((enterSqueezing_runs _).steady.after (steady_withCycle rfl))
  | squeezeTimedOut hpower _ =>
    exact steady hpower ((endSqueezeOf_runs _ _ p).trans (endSqueezing_runs enterPenetrating_runs _)).steady
  | raiseTimedOut hpower _ _ => exact steady hpower (endRaise_runs enterPenetrating_runs p).steady
  | raiseStuck hpower _ _ => exact steady hpower (stuckFault_steady p)
  | lockoutRaiseTimedOut hpower _ _ => exact steady hpower (afterLockoutDepth_runs p).steady
  | lockoutRaiseStuck hpower _ _ => exact steady hpower ((addCause_steady _ _ _).after (steady_withCycle rfl))
  | saveEnded snapshot readBack hpower _ =>
    exact (steady_of_offPort (handEvent_offPort _ _)).travelAndDrive hpower (withStore_travelAndDrive rfl hp)
  | request r rest a hpower _ _ ha =>
    have hfound := (foundPart_steady r rest).travelAndDrive hpower hp
    have hpower' := (foundPart_steady (p := p) r rest).powered.trans hpower
    have hdone : TravelAndDrive a.part := by
      rcases ha with h | ⟨_, h⟩
      · rw [h]; exact hfound
      · exact h.travelAndDrive hpower' hfound
    exact hdone
  | _ => exact hp

/-- Settles O58: between the parts before and after a command the travel counter is as it was or moves within its range, and
the drive is driven only by its own operations, each of which keeps its limits. -/
theorem travelAndDriveStayLegal : Obligations.TravelAndDriveStayLegal := by
  unfold Obligations.TravelAndDriveStayLegal
  exact fun s t ht hd h => (step_effect h).travelAndDrive ⟨ht, hd⟩

end

end Sys2Proof.Machine
end

section
/-! PROOF. The records and the cycle stay legal (R37 to R40, R43, R149, R166): what each operation of the queue makes of a legal
queue, which knows the current sleeper by its number alone. -/

namespace Sys2Proof.Machine
open Sys2Proof Sys2Proof.Safety

/-! ### The records (sections 3.1 to 3.3) -/

/-- How many records are reported. -/
def reportedCount (rs : List SleeperRecord) : Nat := (rs.filter SleeperRecord.isReported).length

/-- The records are in strictly rising number. -/
abbrev Rising (rs : List SleeperRecord) : Prop := rs.Pairwise fun x y => x.number < y.number

section
variable {rs : List SleeperRecord} {r x : SleeperRecord} {n : Nat} {f : SleeperRecord → SleeperRecord}

theorem Rising.unique (h : Rising rs) (hr : r ∈ rs) (hx : x ∈ rs) (hn : r.number = x.number) : r = x := by
  induction rs with
  | nil => cases hr
  | cons y rs ih =>
    obtain ⟨hlt, hrest⟩ := List.pairwise_cons.1 h
    rcases List.mem_cons.1 hr with hry | hr' <;> rcases List.mem_cons.1 hx with hxy | hx'
    · rw [hry, hxy]
    · rw [hry] at hn
      exact absurd hn (Nat.ne_of_lt (hlt x hx'))
    · rw [hxy] at hn
      exact absurd hn (Nat.ne_of_gt (hlt r hr'))
    · exact ih hrest hr' hx'

theorem recordAt_mem (h : recordAt rs n = some r) : r ∈ rs ∧ r.number = n :=
  ⟨List.mem_of_find?_eq_some h, by simpa using List.find?_some h⟩

theorem recordAt_of_mem (h : Rising rs) (hr : r ∈ rs) : recordAt rs r.number = some r := by
  cases hfound : recordAt rs r.number with
  | none => exact absurd (beq_self_eq_true r.number) (List.find?_eq_none.1 hfound r hr)
  | some x =>
    obtain ⟨hx, hn⟩ := recordAt_mem hfound
    rw [h.unique hx hr hn]

theorem changeRecord_rising (h : Rising rs) (hf : ∀ r, (f r).number = r.number) : Rising (changeRecord rs n f) := by
  refine List.pairwise_map.2 (h.imp fun {x y} hlt => ?_)
  have hnum : ∀ r : SleeperRecord, (if r.number = n then f r else r).number = r.number := by
    intro r
    split
    · exact hf r
    · rfl
  rw [hnum, hnum]
  exact hlt

theorem mem_changeRecord : x ∈ changeRecord rs n f ↔ ∃ r ∈ rs, x = if r.number = n then f r else r := by
  simp only [changeRecord, List.mem_map, eq_comm]

theorem length_changeRecord : (changeRecord rs n f).length = rs.length := List.length_map _

/-- A change that makes no record reported leaves at most as many reported. -/
theorem reportedCount_changeRecord_le (h : ∀ r ∈ rs, r.number = n → (f r).isReported = true → r.isReported = true) :
    reportedCount (changeRecord rs n f) ≤ reportedCount rs := by
  induction rs with
  | nil => rfl
  | cons y rs ih =>
    have hrest := ih fun r hr => h r (List.mem_cons_of_mem _ hr)
    have hy := h y List.mem_cons_self
    simp only [reportedCount, changeRecord, List.map_cons, List.filter_cons] at hrest ⊢
    by_cases hn : y.number = n
    · rw [if_pos hn]
      split
      · next hrep => rw [if_pos (hy hn hrep)]; simpa using hrest
      · split
        · exact Nat.le_succ_of_le hrest
        · exact hrest
    · rw [if_neg hn]
      split
      · simpa using hrest
      · exact hrest

/-- A number names at most one record, so a change makes at most one record reported. -/
theorem reportedCount_changeRecord_succ (h : Rising rs) : reportedCount (changeRecord rs n f) ≤ reportedCount rs + 1 := by
  induction rs with
  | nil => simp [reportedCount, changeRecord]
  | cons y rs ih =>
    obtain ⟨hlt, hrest⟩ := List.pairwise_cons.1 h
    have hcount := ih hrest
    simp only [reportedCount, changeRecord, List.map_cons, List.filter_cons] at hcount ⊢
    by_cases hn : y.number = n
    · have hsame : rs.map (fun r => if r.number = n then f r else r) = rs := by
        refine (List.map_congr_left fun r hr => ?_).trans (List.map_id _)
        rw [if_neg (by rw [← hn]; exact Nat.ne_of_gt (hlt r hr))]
        rfl
      rw [hsame, if_pos hn]
      split <;> split <;> simp [Nat.le_add_right_of_le]
    · rw [if_neg hn]
      split
      · simpa using hcount
      · exact hcount

theorem dropLowestReported_sublist (rs : List SleeperRecord) : (dropLowestReported rs).Sublist rs := by
  induction rs with
  | nil => exact .slnil
  | cons y rs ih =>
    unfold dropLowestReported
    split
    · exact List.sublist_cons_self y rs
    · exact ih.cons_cons y

theorem mem_dropLowestReported (hr : r ∈ rs) (h : r.isReported = false) : r ∈ dropLowestReported rs := by
  induction rs with
  | nil => cases hr
  | cons y rs ih =>
    unfold dropLowestReported
    split
    · next hy =>
      rcases List.mem_cons.1 hr with rfl | hr
      · rw [h] at hy; cases hy
      · exact hr
    · rcases List.mem_cons.1 hr with rfl | hr
      · exact List.mem_cons_self
      · exact List.mem_cons_of_mem _ (ih hr)

theorem dropLowestReported_counts (h : rs.any SleeperRecord.isReported = true) :
    (dropLowestReported rs).length + 1 = rs.length ∧ reportedCount (dropLowestReported rs) + 1 = reportedCount rs := by
  induction rs with
  | nil => cases h
  | cons y rs ih =>
    unfold dropLowestReported
    split
    · next hy => simp [reportedCount, hy]
    · next hy =>
      have hrest : rs.any SleeperRecord.isReported = true := by simpa [hy] using h
      obtain ⟨hlen, hcount⟩ := ih hrest
      simp only [reportedCount, List.filter_cons, hy] at hcount ⊢
      exact ⟨by simpa using hlen, hcount⟩

theorem any_reported_of_count (h : 0 < reportedCount rs) : rs.any SleeperRecord.isReported = true := by
  obtain ⟨r, hr⟩ := List.exists_mem_of_length_pos h
  exact List.any_eq_true.2 ⟨r, (List.mem_filter.1 hr).1, (List.mem_filter.1 hr).2⟩

/-- What R43 may remove: the records stay in their order, and those that are not reported stay. -/
theorem trimHistory_keeps (rs : List SleeperRecord) :
    (trimHistory rs).Sublist rs ∧ ∀ r ∈ rs, r.isReported = false → r ∈ trimHistory rs := by
  unfold trimHistory
  split
  · exact ⟨dropLowestReported_sublist rs, fun _ => mem_dropLowestReported⟩
  · exact ⟨.refl rs, fun _ hr _ => hr⟩

theorem reportedCount_trimHistory (h : reportedCount rs ≤ 5) : reportedCount (trimHistory rs) ≤ 4 := by
  unfold trimHistory
  split
  · next hc =>
    have hcounts := dropLowestReported_counts (any_reported_of_count (Nat.lt_of_lt_of_le (by decide) (Nat.le_of_lt hc)))
    omega
  · next hc => exact Nat.le_of_not_lt hc

end

/-! ### A legal queue -/

/-- QueueLegal, of the queue alone. -/
def QueueSound (q : Queue) : Prop :=
  q.records.length ≤ 16 ∧ Rising q.records ∧
  (∀ r ∈ q.records, 1 ≤ r.number ∧ (r.number < q.nextNumber ∨ (q.exhausted = true ∧ r.number = q.nextNumber)) ∧
    r.tampCount ≤ 15) ∧
  reportedCount q.records ≤ 4 ∧ 1 ≤ q.nextNumber ∧ q.nextNumber ≤ 4294967295 ∧
  ∀ k, q.aside = some k → k.tampCount ≤ 15

/-- R38: the records of which the current sleeper's, if there is one, is the one IN_CYCLE. -/
def Sits (rs : List SleeperRecord) (cur : Option Nat) : Prop :=
  (∀ r ∈ rs, r.state = .inCycle ↔ cur = some r.number) ∧ ∀ n, cur = some n → ∃ r ∈ rs, r.number = n

/-- A legal queue with a current sleeper or none: something is kept aside exactly while there is one. -/
structure QueueHolds (q : Queue) (cur : Option Nat) : Prop where
  sound : QueueSound q
  sits : Sits q.records cur
  aside : q.aside.isSome = cur.isSome
  asideState : ∀ k, q.aside = some k → k.state ≠ .inCycle

section
variable {q u : Queue} {cur : Option Nat} {rs : List SleeperRecord} {r : SleeperRecord} {n : Nat}
  {f : SleeperRecord → SleeperRecord}

/-- What a legal queue depends on. -/
theorem QueueHolds.congr (h : QueueHolds q cur) (hrs : u.records = q.records) (hnext : u.nextNumber = q.nextNumber)
    (hex : u.exhausted = q.exhausted) (ha : u.aside = q.aside) : QueueHolds u cur := by
  obtain ⟨hsound, hsits, haside, hstate⟩ := h
  refine ⟨?_, by rw [hrs]; exact hsits, by rw [ha]; exact haside, by rw [ha]; exact hstate⟩
  unfold QueueSound
  rw [hrs, hnext, hex, ha]
  exact hsound

theorem QueueSound.change (h : QueueSound q) (hnum : ∀ r, (f r).number = r.number)
    (htamp : ∀ r ∈ q.records, r.number = n → (f r).tampCount ≤ 15)
    (hcount : reportedCount (changeRecord q.records n f) ≤ 4) :
    QueueSound { q with records := changeRecord q.records n f } := by
  obtain ⟨hlen, hrise, hrows, _, hnext⟩ := h
  refine ⟨length_changeRecord.trans_le hlen, changeRecord_rising hrise hnum, fun x hx => ?_, hcount, hnext⟩
  obtain ⟨r, hr, rfl⟩ := mem_changeRecord.1 hx
  obtain ⟨hone, hbelow, h15⟩ := hrows r hr
  split
  · next hn => rw [hnum]; exact ⟨hone, hbelow, htamp r hr hn⟩
  · exact ⟨hone, hbelow, h15⟩

/-- With something kept aside or not. -/
theorem QueueSound.withAside {a : Option Aside} (h : QueueSound q) (ha : ∀ k, a = some k → k.tampCount ≤ 15) :
    QueueSound { q with aside := a } := by
  obtain ⟨hlen, hrise, hrows, hcount, hlow, hhigh, _⟩ := h
  exact ⟨hlen, hrise, hrows, hcount, hlow, hhigh, ha⟩

/-- With some records left out. -/
theorem QueueSound.sublist (h : QueueSound q) (hs : rs.Sublist q.records) (hcount : reportedCount rs ≤ 4) :
    QueueSound { q with records := rs } := by
  obtain ⟨hlen, hrise, hrows, _, hnext⟩ := h
  exact ⟨hs.length_le.trans hlen, hrise.sublist hs, fun r hr => hrows r (hs.subset hr), hcount, hnext⟩

theorem Sits.change (h : Sits rs cur) (hnum : ∀ r, (f r).number = r.number)
    (hstate : ∀ r ∈ rs, r.number = n → ((f r).state = .inCycle ↔ r.state = .inCycle)) :
    Sits (changeRecord rs n f) cur := by
  refine ⟨fun x hx => ?_, fun m hm => ?_⟩
  · obtain ⟨r, hr, rfl⟩ := mem_changeRecord.1 hx
    split
    · next hn => rw [hstate r hr hn, hnum]; exact h.1 r hr
    · exact h.1 r hr
  · obtain ⟨r, hr, hm⟩ := h.2 m hm
    refine ⟨_, mem_changeRecord.2 ⟨r, hr, rfl⟩, ?_⟩
    split
    · rw [hnum]; exact hm
    · exact hm

/-- The record of a number comes into the cycle. -/
theorem Sits.start (h : Sits rs none) (hr : ∃ r ∈ rs, r.number = n) (hnum : ∀ r, (f r).number = r.number)
    (hstate : ∀ r, (f r).state = .inCycle) : Sits (changeRecord rs n f) (some n) := by
  refine ⟨fun x hx => ?_, fun m hm => ?_⟩
  · obtain ⟨r, hr, rfl⟩ := mem_changeRecord.1 hx
    split
    · next hn => rw [hnum, hn]; exact iff_of_true (hstate r) rfl
    · next hn =>
      refine iff_of_false (fun hin => ?_) fun heq => hn (Option.some.inj heq).symm
      cases (h.1 r hr).1 hin
  · cases hm
    obtain ⟨r, hr, hn⟩ := hr
    exact ⟨_, mem_changeRecord.2 ⟨r, hr, rfl⟩, by rw [if_pos hn, hnum, hn]⟩

/-- The record in cycle leaves the cycle. -/
theorem Sits.finish (h : Sits rs (some n)) (hstate : ∀ r, (f r).state ≠ .inCycle) : Sits (changeRecord rs n f) none := by
  refine ⟨fun x hx => iff_of_false (fun hin => ?_) nofun, nofun⟩
  obtain ⟨r, hr, rfl⟩ := mem_changeRecord.1 hx
  split at hin
  · exact hstate r hin
  · next hn => exact hn (Option.some.inj ((h.1 r hr).1 hin)).symm

theorem not_inCycle_of_reported (h : r.isReported = true) : r.state ≠ .inCycle := by
  intro hin
  simp [SleeperRecord.isReported, RecordState.isCompleted, hin] at h

/-- Only reported records are left out. -/
theorem Sits.keep {rs' : List SleeperRecord} (h : Sits rs cur) (hs : rs'.Sublist rs)
    (hkeep : ∀ r ∈ rs, r.isReported = false → r ∈ rs') : Sits rs' cur := by
  refine ⟨fun r hr => h.1 r (hs.subset hr), fun n hn => ?_⟩
  obtain ⟨r, hr, hnum⟩ := h.2 n hn
  refine ⟨r, hkeep r hr (Bool.eq_false_iff.2 fun hrep => not_inCycle_of_reported hrep ?_), hnum⟩
  exact (h.1 r hr).2 (hn.trans (congrArg some hnum.symm))

/-- A change that neither reports a record nor moves one into or out of the cycle. -/
theorem QueueHolds.change (h : QueueHolds q cur) (hnum : ∀ r, (f r).number = r.number)
    (hf : ∀ r ∈ q.records, r.number = n → (f r).tampCount = r.tampCount ∧
      ((f r).isReported = true → r.isReported = true) ∧ ((f r).state = .inCycle ↔ r.state = .inCycle)) :
    QueueHolds { q with records := changeRecord q.records n f } cur where
  sound := by
    obtain ⟨_, _, hrows, hcount, _⟩ := h.sound
    refine h.sound.change hnum (fun r hr hn => ?_) ((reportedCount_changeRecord_le fun r hr hn => (hf r hr hn).2.1).trans hcount)
    rw [(hf r hr hn).1]
    exact (hrows r hr).2.2
  sits := h.sits.change hnum fun r hr hn => (hf r hr hn).2.2
  aside := h.aside
  asideState := h.asideState

/-! ### What the operations make of a legal queue -/

theorem QueueHolds.unique (h : QueueHolds q cur) {x : SleeperRecord} (hr : recordAt q.records n = some r) (hx : x ∈ q.records)
    (hn : x.number = n) : x = r := by
  obtain ⟨hmem, hrn⟩ := recordAt_mem hr
  exact h.sound.2.1.unique hx hmem (hn.trans hrn.symm)

/-- R44: a PENDING record passes. -/
theorem QueueHolds.pass {st : RecordState} (h : QueueHolds q cur) (hr : recordAt q.records n = some r)
    (hp : r.state = .pending) (hst : st ≠ .inCycle) :
    QueueHolds { q with records := changeRecord q.records n fun r => { r with state := st, reported := false } } cur := by
  refine h.change (fun _ => rfl) fun x hx hn => ?_
  rw [h.unique hr hx hn]
  refine ⟨rfl, fun hrep => ?_, iff_of_false hst (by rw [hp]; decide)⟩
  simp [SleeperRecord.isReported] at hrep

/-- R41, R37: the new record joins the records, for which there is room. -/
theorem QueueHolds.record {c : Candidate} (h : QueueHolds q cur) (hex : q.exhausted = false)
    (hroom : roomForRecord q.records = some rs) :
    QueueHolds { q with
      records := rs ++ [newRecord q.nextNumber c]
      nextNumber := if decide (q.nextNumber = lastNumber) then lastNumber else q.nextNumber + 1
      exhausted := decide (q.nextNumber = lastNumber) } cur := by
  obtain ⟨hlen, hrise, hrows, hcount, hlow, hhigh, htamp⟩ := h.sound
  have hkept : rs.length ≤ 15 ∧ rs.Sublist q.records ∧ reportedCount rs ≤ 4 ∧
      ∀ r ∈ q.records, r.isReported = false → r ∈ rs := by
    unfold roomForRecord at hroom
    split at hroom
    · next hshort =>
      cases hroom
      exact ⟨Nat.le_of_lt_succ hshort, .refl _, hcount, fun _ hr _ => hr⟩
    · split at hroom
      · next hany =>
        cases hroom
        obtain ⟨hl, hc⟩ := dropLowestReported_counts hany
        exact ⟨by omega, dropLowestReported_sublist _, by omega, fun _ => mem_dropLowestReported⟩
      · cases hroom
  obtain ⟨h15, hsub, h4, hkeep⟩ := hkept
  have hbelow : ∀ r ∈ rs, r.number < q.nextNumber := fun r hr => by
    rcases (hrows r (hsub.subset hr)).2.1 with hlt | ⟨hx, _⟩
    · exact hlt
    · rw [hex] at hx; cases hx
  refine ⟨⟨by simp; omega, ?_, fun r hr => ?_, ?_, ?_, ?_, htamp⟩, ⟨fun r hr => ?_, fun n hn => ?_⟩, h.aside, h.asideState⟩
  · refine List.pairwise_append.2 ⟨hrise.sublist hsub, List.pairwise_singleton .., fun x hx y hy => ?_⟩
    rw [List.mem_singleton.1 hy]
    exact hbelow x hx
  · have hle : r.number ≤ q.nextNumber ∧ 1 ≤ r.number ∧ r.tampCount ≤ 15 := by
      rcases List.mem_append.1 hr with hr | hr
      · obtain ⟨hone, _, ht⟩ := hrows r (hsub.subset hr)
        exact ⟨Nat.le_of_lt (hbelow r hr), hone, ht⟩
      · rw [List.mem_singleton.1 hr]
        exact ⟨Nat.le_refl _, hlow, Nat.zero_le _⟩
    refine ⟨hle.2.1, ?_, hle.2.2⟩
    by_cases hfull : q.nextNumber = lastNumber
    · simp only [hfull, decide_true, if_true, true_and]
      rw [hfull] at hle
      omega
    · simp only [hfull, decide_false, Bool.false_eq_true, if_false, false_and, or_false]
      omega
  · have hnew : (newRecord q.nextNumber c).isReported = false := rfl
    simpa [reportedCount, hnew] using h4
  · show 1 ≤ if _ then _ else _
    split
    · decide
    · exact Nat.le_add_left 1 _
  · show (if _ then _ else _) ≤ 4294967295
    split
    · decide
    · next hfull =>
      have hne : q.nextNumber ≠ lastNumber := by simpa using hfull
      exact Nat.lt_of_le_of_ne hhigh hne
  · rcases List.mem_append.1 hr with hr | hr
    · exact h.sits.1 r (hsub.subset hr)
    · rw [List.mem_singleton.1 hr]
      refine iff_of_false (fun hin => by cases hin) fun hcur => ?_
      obtain ⟨x, hx, hxn⟩ := h.sits.2 _ hcur
      have hstate := (h.sits.1 x hx).2 (hcur.trans (congrArg some hxn.symm))
      have hlt := hbelow x (hkeep x hx (Bool.eq_false_iff.2 fun hrep => not_inCycle_of_reported hrep hstate))
      exact absurd hxn (Nat.ne_of_lt hlt)
  · obtain ⟨x, hx, hxn⟩ := (h.sits.keep hsub hkeep).2 n hn
    exact ⟨x, List.mem_append_left _ hx, hxn⟩

/-- R39: a cycle starts on a record. -/
theorem QueueHolds.start (h : QueueHolds q none) (hr : recordAt q.records n = some r) :
    QueueHolds { q with
      aside := some { state := r.state, tampCount := r.tampCount, reported := r.reported, failure := r.failure }
      records := changeRecord q.records n fun r =>
        { r with state := .inCycle, reported := false, failure := none, tampCount := min 15 (r.tampCount + 1) } } (some n) where
  sound := by
    obtain ⟨_, _, hrows, hcount, _⟩ := h.sound
    have hchanged := h.sound.change (n := n)
      (f := fun r => { r with state := .inCycle, reported := false, failure := none, tampCount := min 15 (r.tampCount + 1) })
      (fun _ => rfl) (fun _ _ _ => Nat.min_le_left ..)
      ((reportedCount_changeRecord_le fun _ _ _ hrep => by simp [SleeperRecord.isReported] at hrep).trans hcount)
    exact hchanged.withAside fun k hk => by cases hk; exact (hrows r (recordAt_mem hr).1).2.2
  sits := h.sits.start ⟨r, recordAt_mem hr⟩ (fun _ => rfl) fun _ => rfl
  aside := rfl
  asideState := fun k hk hin => by
    cases hk
    cases (h.sits.1 r (recordAt_mem hr).1).1 hin

/-- R39: a cycle ends on the record in cycle, which is then unreported. -/
theorem QueueHolds.finish {g : SleeperRecord → Option CycleResult} {st : RecordState} {cause : Option FailureCause}
    (h : QueueHolds q (some n)) (hst : st ≠ .inCycle) :
    QueueHolds { q with
      aside := none
      records := changeRecord q.records n fun r =>
        { r with state := st, failure := cause, reported := false, result := g r } } none where
  sound := by
    obtain ⟨_, _, hrows, hcount, _⟩ := h.sound
    have hchanged := h.sound.change (n := n)
      (f := fun r => { r with state := st, failure := cause, reported := false, result := g r })
      (fun _ => rfl) (fun r hr _ => (hrows r hr).2.2)
      ((reportedCount_changeRecord_le fun _ _ _ hrep => by simp [SleeperRecord.isReported] at hrep).trans hcount)
    exact hchanged.withAside nofun
  sits := h.sits.finish fun _ => hst
  aside := rfl
  asideState := nofun

/-- R39: a record as it was kept aside. -/
def restoredTo (k : Aside) (r : SleeperRecord) : SleeperRecord :=
  { r with state := k.state, tampCount := k.tampCount, reported := k.reported, failure := k.failure }

/-- R54: a record that is reported. -/
def madeReported (r : SleeperRecord) : SleeperRecord := { r with reported := true }

/-- R39, R43: what was kept aside is put back. -/
theorem QueueHolds.putBack {k : Aside} (h : QueueHolds q (some n)) (hk : q.aside = some k) :
    QueueHolds { q with
      aside := none
      records := trimHistory (changeRecord q.records n (restoredTo k)) } none := by
  obtain ⟨hlen, hrise, hrows, hcount, hlow, hhigh, htamp⟩ := h.sound
  obtain ⟨hsub, hkeep⟩ := trimHistory_keeps (changeRecord q.records n (restoredTo k))
  have hfive : reportedCount (trimHistory (changeRecord q.records n (restoredTo k))) ≤ 4 :=
    reportedCount_trimHistory ((reportedCount_changeRecord_succ hrise).trans (Nat.succ_le_succ hcount))
  refine ⟨⟨hsub.length_le.trans (length_changeRecord.trans_le hlen),
    (changeRecord_rising (f := restoredTo k) hrise fun _ => rfl).sublist hsub, fun x hx => ?_, hfive, hlow, hhigh, nofun⟩,
    (h.sits.finish fun _ => h.asideState k hk).keep hsub hkeep, rfl, nofun⟩
  obtain ⟨r, hr, rfl⟩ := mem_changeRecord.1 (hsub.subset hx)
  obtain ⟨hone, hbelow, h15⟩ := hrows r hr
  split
  · exact ⟨hone, hbelow, htamp k hk⟩
  · exact ⟨hone, hbelow, h15⟩

/-- R54, R43: the SLEEPER DONE of a record is accepted. -/
theorem QueueHolds.accept (h : QueueHolds q cur) :
    QueueHolds { q with records := trimHistory (changeRecord q.records n madeReported) } cur := by
  obtain ⟨hlen, hrise, hrows, hcount, hlow, hhigh, htamp⟩ := h.sound
  obtain ⟨hsub, hkeep⟩ := trimHistory_keeps (changeRecord q.records n madeReported)
  have hfive : reportedCount (trimHistory (changeRecord q.records n madeReported)) ≤ 4 :=
    reportedCount_trimHistory ((reportedCount_changeRecord_succ hrise).trans (Nat.succ_le_succ hcount))
  refine ⟨⟨hsub.length_le.trans (length_changeRecord.trans_le hlen),
    (changeRecord_rising (f := madeReported) hrise fun _ => rfl).sublist hsub, fun x hx => ?_, hfive, hlow, hhigh, htamp⟩,
    (h.sits.change (f := madeReported) (fun _ => rfl) fun _ _ _ => Iff.rfl).keep hsub hkeep, h.aside, h.asideState⟩
  obtain ⟨r, hr, rfl⟩ := mem_changeRecord.1 (hsub.subset hx)
  split <;> exact hrows r hr

/-- R9: the records are removed. -/
theorem QueueHolds.clear {latch : Option Nat} (h : QueueHolds q none) :
    QueueHolds { q with records := [], latch := latch } none where
  sound := by
    obtain ⟨_, _, _, _, hlow, hhigh, htamp⟩ := h.sound
    exact ⟨Nat.zero_le _, .nil, fun _ hr => absurd hr List.not_mem_nil, Nat.zero_le _, hlow, hhigh, htamp⟩
  sits := ⟨fun _ hr => absurd hr List.not_mem_nil, fun _ hn => by cases hn⟩
  aside := h.aside
  asideState := h.asideState

end

end Sys2Proof.Machine
end

section
/-! PROOF. The records and the cycle stay legal (R37 to R40, R43, R149, R166), second part: the controller, which keeps its
current sleeper's record IN_CYCLE, and the commands. -/

namespace Sys2Proof.Machine
open Sys2Proof Sys2Proof.Safety

/-- The controller's part of CycleLegal: the causes are those of a LOCKOUT, and a current sleeper and cycle values are there
exactly in the five cycle states. -/
def ControllerLegal (p : Part) : Prop :=
  (p.cycle.causes = noCauses ↔ p.cycle.phase ≠ .lockout) ∧ (p.phase = .starting → p.cycle.phase = .lockout) ∧
  p.cycle.current.isSome = InCyclePhase p.cycle.phase ∧ p.cycle.values.isSome = InCyclePhase p.cycle.phase

/-- The queue is legal about the current sleeper, and the controller is legal. -/
structure QueueAndCycle (p : Part) : Prop where
  queue : QueueHolds p.queue p.cycle.current
  controller : ControllerLegal p

section
variable {p q : Part}

theorem queueAndCycle_iff (p : Part) : QueueAndCycle p ↔ QueueLegal p ∧ CycleLegal p := by
  constructor
  · rintro ⟨⟨hsound, hsits, haside, hstate⟩, hcause, hstart, hcur, hval⟩
    exact ⟨hsound, hcause, hstart, hsits.1, hsits.2, hcur, hval, haside.trans hcur, hstate⟩
  · rintro ⟨hsound, hcause, hstart, hrows, hfound, hcur, hval, haside, hstate⟩
    exact ⟨⟨hsound, ⟨hrows, hfound⟩, haside.trans hcur.symm, hstate⟩, hcause, hstart, hcur, hval⟩

/-! ### What the laws depend on -/

theorem ControllerLegal.congr (h : ControllerLegal p) (hphase : q.phase = p.phase) (hc : q.cycle.phase = p.cycle.phase)
    (hcause : q.cycle.causes = p.cycle.causes) (hcur : q.cycle.current = p.cycle.current)
    (hval : q.cycle.values = p.cycle.values) : ControllerLegal q := by
  unfold ControllerLegal at *
  rw [hphase, hc, hcause, hcur, hval]
  exact h

theorem QueueAndCycle.congr (h : QueueAndCycle p) (hq : q.queue = p.queue) (hphase : q.phase = p.phase)
    (hc : q.cycle.phase = p.cycle.phase) (hcause : q.cycle.causes = p.cycle.causes)
    (hcur : q.cycle.current = p.cycle.current) (hval : q.cycle.values = p.cycle.values) : QueueAndCycle q :=
  ⟨by rw [hq, hcur]; exact h.queue, h.controller.congr hphase hc hcause hcur hval⟩

/-- With the phase and the controller as they are, the queue decides. -/
theorem QueueAndCycle.ofQueue (h : QueueAndCycle p) (hphase : q.phase = p.phase) (hc : q.cycle = p.cycle)
    (hq : QueueHolds q.queue p.cycle.current) : QueueAndCycle q :=
  ⟨by rw [hc]; exact hq, h.controller.congr hphase (by rw [hc]) (by rw [hc]) (by rw [hc]) (by rw [hc])⟩

theorem phase_of_ground (h : q.ground = p.ground) : q.phase = p.phase := congrArg Ground.phase h

theorem QueueAndCycle.of_offQueue (h : QueueAndCycle p) (hoff : q.offQueue = p.offQueue)
    (hq : QueueHolds q.queue p.cycle.current) : QueueAndCycle q :=
  h.ofQueue (phase_of_ground (ground_of_offQueue hoff)) (congrArg (fun x => x.2.2) hoff) hq

theorem QueueAndCycle.of_offPort (h : QueueAndCycle p) (hoff : q.offPort = p.offPort) : QueueAndCycle q :=
  h.of_offQueue (offQueue_of_offPort hoff) (by rw [queue_of_offPort hoff]; exact h.queue)

theorem QueueAndCycle.of_offPlan (h : QueueAndCycle p) (hoff : q.offPlan = p.offPlan) : QueueAndCycle q := by
  simp only [Part.offPlan, Prod.mk.injEq] at hoff
  obtain ⟨⟨_, hphase, _⟩, _, hc, hq⟩ := hoff
  exact h.ofQueue hphase hc (by rw [hq]; exact h.queue)

/-- A running cycle that goes on is still legal. -/
theorem QueueAndCycle.runs (h : QueueAndCycle p) (hr : Runs p q)
    (hphase : InCyclePhase p.cycle.phase = true ∨ q.cycle.phase = p.cycle.phase) : QueueAndCycle q := by
  by_cases heq : q.cycle.phase = p.cycle.phase
  · exact h.congr hr.queue (phase_of_ground hr.ground) heq hr.causes hr.current hr.values
  · have hp : InCyclePhase p.cycle.phase = true := hphase.resolve_right heq
    have hq : InCyclePhase q.cycle.phase = true := hr.phase.resolve_left heq
    have running : ∀ ph : CyclePhase, InCyclePhase ph = true → ph ≠ .lockout := fun ph hin hl => by
      rw [hl] at hin
      cases hin
    obtain ⟨hcause, hstart, hcur, hval⟩ := h.controller
    refine ⟨by rw [hr.queue, hr.current]; exact h.queue, ?_, fun hs => ?_, ?_, ?_⟩
    · rw [hr.causes]
      exact iff_of_true (hcause.2 (running _ hp)) (running _ hq)
    · exact absurd (hstart ((phase_of_ground hr.ground).symm.trans hs)) (running _ hp)
    · rw [hr.current, hcur, hp, hq]
    · rw [hr.values, hval, hp, hq]

/-- Without a current sleeper the cycle can come to LOCKOUT with a cause. -/
theorem queueAndCycle_lockout (hq : QueueHolds p.queue none) (hcur : p.cycle.current = none) (hval : p.cycle.values = none)
    (hphase : p.cycle.phase = .lockout) (hcause : p.cycle.causes ≠ noCauses) : QueueAndCycle p := by
  refine ⟨by rw [hcur]; exact hq, iff_of_false hcause (not_not.2 hphase), fun _ => hphase, ?_, ?_⟩
  · rw [hcur, hphase]; rfl
  · rw [hval, hphase]; rfl

/-- Without a current sleeper, and with no cause, the cycle can come to IDLE. -/
theorem queueAndCycle_idle (hq : QueueHolds p.queue none) (hcur : p.cycle.current = none) (hval : p.cycle.values = none)
    (hphase : p.cycle.phase = .idle) (hcause : p.cycle.causes = noCauses) (hready : p.phase ≠ .starting) :
    QueueAndCycle p := by
  refine ⟨by rw [hcur]; exact hq, iff_of_true hcause (by rw [hphase]; decide), fun hs => absurd hs hready, ?_, ?_⟩
  · rw [hcur, hphase]; rfl
  · rw [hval, hphase]; rfl

/-- In IDLE and in LOCKOUT there is no current sleeper. -/
theorem QueueAndCycle.no_current (h : QueueAndCycle p) (hphase : InCyclePhase p.cycle.phase = false) :
    p.cycle.current = none ∧ p.cycle.values = none ∧ QueueHolds p.queue none := by
  obtain ⟨_, _, hcur, hval⟩ := h.controller
  rw [hphase] at hcur hval
  have hnone : p.cycle.current = none := by simpa using hcur
  exact ⟨hnone, by simpa using hval, by rw [← hnone]; exact h.queue⟩

theorem QueueAndCycle.ready (h : QueueAndCycle p) (hphase : p.cycle.phase ≠ .lockout) : p.phase ≠ .starting :=
  fun hs => hphase (h.controller.2.1 hs)

theorem QueueAndCycle.no_cause (h : QueueAndCycle p) (hphase : p.cycle.phase ≠ .lockout) : p.cycle.causes = noCauses :=
  h.controller.1.2 hphase

theorem QueueAndCycle.running (h : QueueAndCycle p) {n : Nat} (hcur : p.cycle.current = some n) :
    InCyclePhase p.cycle.phase = true := by
  rw [← h.controller.2.2.1, hcur]
  rfl

/-! ### The operations of the queue -/

theorem testStopPoint_holds {cur : Option Nat} (h : QueueHolds p.queue cur) : QueueHolds (testStopPoint p).queue cur := by
  rw [testStopPoint_queue]
  exact h.congr rfl rfl rfl rfl

theorem renewInPosition_holds {cur : Option Nat} (h : QueueHolds p.queue cur) :
    QueueHolds (renewInPosition p).1.queue cur := h.congr rfl rfl rfl rfl

theorem passRecord_holds {cur : Option Nat} (n : Nat) (h : QueueHolds p.queue cur) :
    QueueHolds (passRecord p n).queue cur := by
  unfold passRecord
  split
  · exact h
  · next r hr =>
    split
    · next hc =>
      refine testStopPoint_holds (h.pass hr hc.1 ?_)
      split <;> decide
    · exact h

theorem foldl_passRecord_holds {cur : Option Nat} (ns : List Nat) (p : Part) (h : QueueHolds p.queue cur) :
    QueueHolds (ns.foldl passRecord p).queue cur := by
  induction ns generalizing p with
  | nil => exact h
  | cons n ns ih => exact ih _ (passRecord_holds n h)

theorem handHalt_queue (p : Part) (r : HaltReport) : (handHalt p r).queue = p.queue := queue_of_offPort (handHalt_offPort p r)

theorem haltStep_holds {cur : Option Nat} (r : SleeperRecord) (h : QueueHolds p.queue cur) :
    QueueHolds (haltStep p r).queue cur := by
  unfold haltStep
  split
  · rw [handHalt_queue]
    exact h.congr rfl rfl rfl rfl
  · exact h

theorem recordCandidate_holds {cur : Option Nat} (c : Candidate) (h : QueueHolds p.queue cur) :
    QueueHolds (recordCandidate p c).queue cur := by
  unfold recordCandidate
  simp only
  split
  · rw [handEvent_queue]
    exact h
  · next rs hrs =>
    have hroom : p.queue.exhausted = false ∧ roomForRecord p.queue.records = some rs := by
      split at hrs
      · cases hrs
      · next hex => exact ⟨by simpa using hex, hrs⟩
    refine testStopPoint_holds (renewInPosition_holds (passRecord_holds _ (haltStep_holds _ ?_)))
    exact h.record hroom.1 hroom.2

theorem finishRecord_holds {n : Nat} {st : RecordState} {cause : Option FailureCause} {result : Option CycleResult}
    (hst : st ≠ .inCycle) (h : QueueHolds p.queue (some n)) : QueueHolds (finishRecord p n st cause result).queue none :=
  testStopPoint_holds (h.finish hst)

theorem putBackRecord_holds {n : Nat} (h : QueueHolds p.queue (some n)) : QueueHolds (putBackRecord p n).queue none := by
  unfold putBackRecord
  split
  · next ha =>
    have haside := h.aside
    rw [ha] at haside
    cases haside
  · next k hk => exact testStopPoint_holds (h.putBack hk)

/-- R39: at a fault the record in cycle leaves the cycle. -/
theorem failCurrent_holds (cause : FailureCause) (h : QueueAndCycle p) : QueueHolds (failCurrent p cause).queue none := by
  have hq := h.queue
  unfold failCurrent
  split
  · next hcur => rw [hcur] at hq; exact hq
  · next n hcur => rw [hcur] at hq; exact finishRecord_holds (by decide) hq

theorem putBackCurrent_holds (h : QueueAndCycle p) : QueueHolds (putBackCurrent p).queue none := by
  have hq := h.queue
  unfold putBackCurrent
  split
  · next hcur => rw [hcur] at hq; exact hq
  · next n hcur => rw [hcur] at hq; exact renewInPosition_holds (putBackRecord_holds hq)

theorem takeCell_queueAndCycle (lines : ScanLines) (x : Int) (h : QueueAndCycle p) : QueueAndCycle (takeCell lines p x) := by
  have scanned : ∀ sc : Scanner, QueueAndCycle { p with scanner := sc } := fun _ => h.congr rfl rfl rfl rfl rfl rfl
  unfold takeCell
  simp only
  split
  · exact scanned _
  · exact (scanned _).of_offQueue (recordCandidate_offQueue _ _) (recordCandidate_holds _ (scanned _).queue)

theorem scannerAdvance_queueAndCycle (lines : ScanLines) (h : QueueAndCycle p) : QueueAndCycle (scannerAdvance lines p) := by
  have cells : ∀ (xs : List Int) (q : Part), QueueAndCycle q → QueueAndCycle (xs.foldl (takeCell lines) q) := by
    intro xs
    induction xs with
    | nil => exact fun _ hq => hq
    | cons x xs ih => exact fun q hq => ih _ (takeCell_queueAndCycle lines x hq)
  unfold scannerAdvance
  split
  · simp only
    split
    · exact cells _ _ (h.congr rfl rfl rfl rfl rfl rfl)
    · exact h
  · exact h

theorem passRecords_queueAndCycle (h : QueueAndCycle p) : QueueAndCycle (passRecords p) :=
  h.of_offQueue (passRecords_offQueue p) (foldl_passRecord_holds _ p h.queue)

theorem testStopPoint_queueAndCycle (h : QueueAndCycle p) : QueueAndCycle (testStopPoint p) :=
  h.of_offQueue (testStopPoint_offQueue p) (testStopPoint_holds h.queue)

theorem markSkip_queueAndCycle (n : Nat) (c : Option SkipCause) (h : QueueAndCycle p) : QueueAndCycle (markSkip p n c) := by
  have marked : QueueHolds (p.withRecords (changeRecord p.queue.records n (withSkip c))).queue p.cycle.current :=
    h.queue.change (fun _ => rfl) fun _ _ _ => ⟨rfl, id, Iff.rfl⟩
  exact testStopPoint_queueAndCycle (h.ofQueue rfl rfl marked)

theorem rearmLatch_queueAndCycle (l : Nat) (h : QueueAndCycle p) : QueueAndCycle (rearmLatch p l) := by
  have latched : ∀ latch, QueueAndCycle { p with queue := { p.queue with latch := latch } } := fun _ =>
    h.ofQueue rfl rfl (h.queue.congr rfl rfl rfl rfl)
  unfold rearmLatch
  split
  · exact latched _
  · exact (latched _).of_offPort (handHalt_offPort _ _)

theorem acceptRecord_queueAndCycle (x : SleeperRecord) (h : QueueAndCycle p) : QueueAndCycle (acceptRecord p x) :=
  h.ofQueue rfl rfl (h.queue.accept (n := x.number))

/-! ### Starting a cycle (section 9.3) -/

/-- R45: a record that replaces the best so far is one of the records. -/
theorem foldl_nearer_mem {c tolerance : Int} {rs : List SleeperRecord} {best : Option SleeperRecord} {r : SleeperRecord}
    (h : rs.foldl (nearer c tolerance) best = some r) : r ∈ rs ∨ best = some r := by
  induction rs generalizing best with
  | nil => exact .inr h
  | cons x rs ih =>
    rcases ih h with hr | hbest
    · exact .inl (List.mem_cons_of_mem _ hr)
    · unfold nearer at hbest
      simp only at hbest
      split at hbest
      · split at hbest
        · cases hbest; exact .inl List.mem_cons_self
        · split at hbest
          · cases hbest; exact .inl List.mem_cons_self
          · exact .inr hbest
      · exact .inr hbest

theorem recordInPosition_mem {r : SleeperRecord} (h : recordInPosition p = some r) : r ∈ p.queue.records := by
  unfold recordInPosition at h
  split at h
  · cases h
  · exact (foldl_nearer_mem h).resolve_right nofun

theorem startableRecord_some {r : SleeperRecord} (h : startableRecord p = some r) :
    p.cycle.phase = .idle ∧ p.travel.originState = .set ∧ p.cycle.motion = .standstill ∧ p.lines.estop = false ∧
      recordInPosition p = some r ∧ blockedByLatch p.queue r.number = false ∧ r.candidate.skip ≠ some .allFolded ∧
      r.state ≠ .inCycle := by
  unfold startableRecord at h
  split at h
  · next hc =>
    obtain ⟨hphase, horigin, hmotion, hline⟩ := hc
    split at h
    · cases h
    · next x hx =>
      split at h
      · next hx' => cases h; exact ⟨hphase, horigin, hmotion, hline, hx, hx'⟩
      · cases h
  · cases h

theorem startRecord_queue {r : SleeperRecord} {n : Nat} (h : recordAt p.queue.records n = some r) :
    (startRecord p n).queue = { p.queue with
      aside := some { state := r.state, tampCount := r.tampCount, reported := r.reported, failure := r.failure }
      records := changeRecord p.queue.records n fun r =>
        { r with state := .inCycle, reported := false, failure := none, tampCount := min 15 (r.tampCount + 1) } } := by
  unfold startRecord
  rw [h]

theorem beginCycle_queueAndCycle {r : SleeperRecord} (h : QueueAndCycle p) (hr : startableRecord p = some r) :
    QueueAndCycle (beginCycle p r) := by
  obtain ⟨hphase, _, _, _, hin, _⟩ := startableRecord_some hr
  obtain ⟨_, _, hq⟩ := h.no_current (by rw [hphase]; rfl)
  have hrec := recordAt_of_mem hq.sound.2.1 (recordInPosition_mem hin)
  have started : QueueHolds (startRecord p r.number).queue (some r.number) := by
    rw [startRecord_queue hrec]
    exact hq.start hrec
  have targeted : QueueHolds (writeTargets (startRecord p r.number) r.number).queue (some r.number) :=
    started.change (fun _ => rfl) fun _ _ _ => ⟨rfl, id, Iff.rfl⟩
  have hidle : p.cycle.phase ≠ .lockout := by rw [hphase]; decide
  have hoff := startRecord_offQueue p r.number
  have hcycle : (startRecord p r.number).cycle = p.cycle := congrArg (fun x => x.2.2) hoff
  refine testStopPoint_queueAndCycle ⟨targeted, iff_of_true ?_ (fun hl => by cases hl), fun hs => ?_, rfl, rfl⟩
  · exact (congrArg Cycle.causes hcycle).trans (h.no_cause hidle)
  · exact absurd ((phase_of_ground (ground_of_offQueue hoff)).symm.trans hs) (h.ready hidle)

theorem startCycle_queueAndCycle {r : SleeperRecord} (h : QueueAndCycle p) (hr : startableRecord p = some r) :
    QueueAndCycle (startCycle p r) := by
  have begun := beginCycle_queueAndCycle h hr
  refine begun.runs (giveMoveStart_runs _ _) (.inl ?_)
  have hcycle : (beginCycle p r).cycle = positioningCycle _ r := congrArg (fun x => x.2.2) (testStopPoint_offQueue _)
  rw [hcycle]
  rfl

theorem startEvent_queueAndCycle (h : QueueAndCycle p) : QueueAndCycle (startEvent p) := by
  unfold startEvent
  split
  · exact h
  · split
    · exact h
    · next r hr =>
      split
      · exact startCycle_queueAndCycle h hr
      · exact h

theorem renewInPosition_queueAndCycle (h : QueueAndCycle p) : QueueAndCycle (renewInPosition p).1 :=
  h.ofQueue rfl rfl (renewInPosition_holds h.queue)

theorem renewAndStart_queueAndCycle (h : QueueAndCycle p) : QueueAndCycle (renewAndStart p) := by
  have renewed := renewInPosition_queueAndCycle h
  unfold renewAndStart
  split
  · next q hq => rw [hq] at renewed; exact startEvent_queueAndCycle renewed
  · next q hq => rw [hq] at renewed; exact renewed

/-! ### Stops, faults and lockout (sections 9.5 and 9.6) -/

theorem causes_add_ne (cs : CauseSet) (c : Cause) : cs.add c ≠ noCauses := by
  intro h
  cases c <;> simp [CauseSet.add, noCauses] at h

theorem enterLockout_queueAndCycle (c : Cause) (n : Option Nat) (hq : QueueHolds p.queue none)
    (hcur : p.cycle.current = none) (hval : p.cycle.values = none) : QueueAndCycle (enterLockout p c n) := by
  refine QueueAndCycle.of_offPort ?_ (handEvent_offPort _ _)
  exact queueAndCycle_lockout hq hcur hval rfl (causes_add_ne _ _)

theorem addCause_queueAndCycle (c : Cause) (n : Option Nat) (h : QueueAndCycle p) (hphase : p.cycle.phase = .lockout) :
    QueueAndCycle (addCause p c n) := by
  unfold addCause
  split
  · exact h
  · obtain ⟨hcur, hval, hq⟩ := h.no_current (by rw [hphase]; rfl)
    refine QueueAndCycle.of_offPort ?_ (handEvent_offPort _ _)
    exact queueAndCycle_lockout hq hcur hval hphase (causes_add_ne _ _)

theorem releaseDrive_phase (p : Part) : (releaseDrive p).cycle = p.cycle := by
  unfold releaseDrive
  split <;> rfl

theorem afterLockoutDepth_phase (p : Part) : (afterLockoutDepth p).cycle.phase = p.cycle.phase := by
  unfold afterLockoutDepth
  split <;> rfl

/-- R164: a fault of the running cycle fails its record and locks out. -/
theorem faulted_queueAndCycle (cause : FailureCause) (c : Cause) (n : Option Nat) (h : QueueAndCycle p) :
    QueueAndCycle (enterLockout (dropCurrent (failCurrent (releaseDrive p) cause)) c n) := by
  have released : QueueAndCycle (releaseDrive p) := h.runs (releaseDrive_runs p) (.inr (by rw [releaseDrive_phase]))
  exact enterLockout_queueAndCycle c n (failCurrent_holds cause released) rfl rfl

theorem travelFault_queueAndCycle (h : QueueAndCycle p) : QueueAndCycle (travelFault p) := by
  refine faulted_queueAndCycle _ _ _ (QueueAndCycle.runs
    (p := p.withCycle { p.cycle with squeeze := noSqueeze, phaseTimer := none })
    (h.congr rfl rfl rfl rfl rfl rfl) (startLockoutRaise_runs _) (.inr ?_))
  exact (afterLockoutDepth_phase _).trans rfl

theorem stuckFault_queueAndCycle (h : QueueAndCycle p) : QueueAndCycle (stuckFault p) :=
  faulted_queueAndCycle _ _ _ (p := p.withCycle { p.cycle with
    squeeze := noSqueeze, phaseTimer := none, vertical := noVertical, lockoutRaise := false }) (h.congr rfl rfl rfl rfl rfl rfl)

theorem finishRecord_cycle (p : Part) (n : Nat) (st : RecordState) (c : Option FailureCause) (r : Option CycleResult) :
    (finishRecord p n st c r).cycle = p.cycle := congrArg (fun x => x.2.2) (finishRecord_offQueue p n st c r)

theorem putBackCurrent_offQueue (p : Part) : (putBackCurrent p).offQueue = p.offQueue := by
  unfold putBackCurrent
  split
  · rfl
  · exact (renewInPosition_offQueue _).trans (putBackRecord_offQueue p _)

theorem failCurrent_offQueue (p : Part) (c : FailureCause) : (failCurrent p c).offQueue = p.offQueue := by
  unfold failCurrent
  split
  · rfl
  · exact finishRecord_offQueue p _ _ _ _

theorem cycle_of_offQueue (h : q.offQueue = p.offQueue) : q.cycle = p.cycle := congrArg (fun x => x.2.2) h

theorem abandonCycle_queueAndCycle (h : QueueAndCycle p) (hphase : p.cycle.phase ≠ .lockout) :
    QueueAndCycle (abandonCycle p) := by
  have released : QueueAndCycle (releaseDrive (p.withCycle { p.cycle with fold := noArms, phaseTimer := none })) :=
    QueueAndCycle.runs (p := p.withCycle { p.cycle with fold := noArms, phaseTimer := none })
      (h.congr rfl rfl rfl rfl rfl rfl) (releaseDrive_runs _) (.inr (by rw [releaseDrive_phase]))
  have hoff := putBackCurrent_offQueue (releaseDrive (p.withCycle { p.cycle with fold := noArms, phaseTimer := none }))
  refine queueAndCycle_idle (putBackCurrent_holds released) rfl rfl rfl ?_ ?_
  · exact (congrArg Cycle.causes ((cycle_of_offQueue hoff).trans (releaseDrive_phase _))).trans (h.no_cause hphase)
  · exact fun hs => h.ready hphase (((phase_of_ground (ground_of_offQueue hoff)).trans
      (phase_of_ground (releaseDrive_ground _))).symm.trans hs)

/-- R162, R163: a stop that is requested sends a cycle in PENETRATING or SQUEEZING to RAISING. -/
theorem requestedRaise_queueAndCycle (st : StopRequest) (h : QueueAndCycle p) (hphase : InCyclePhase p.cycle.phase = true) :
    QueueAndCycle (enterRaising (p.withCycle { p.cycle with stopRequested := st })) :=
  QueueAndCycle.runs (p := p.withCycle { p.cycle with stopRequested := st }) (h.congr rfl rfl rfl rfl rfl rfl)
    (enterRaising_runs _) (.inl hphase)

theorem cycleMoving_queueAndCycle (h : QueueAndCycle p) : QueueAndCycle (cycleMoving p) := by
  have stopped : InCyclePhase p.cycle.phase = true → QueueAndCycle (if allClear p then
      enterRaising (p.withCycle { p.cycle with stopRequested := .travelFault }) else travelFault p) := by
    intro hin
    split
    · exact requestedRaise_queueAndCycle _ h hin
    · exact travelFault_queueAndCycle h
  unfold cycleMoving
  split
  · exact h
  · next hphase => exact abandonCycle_queueAndCycle h (by rw [hphase]; decide)
  · next hphase => exact stopped (by rw [hphase]; rfl)
  · next hphase => exact stopped (by rw [hphase]; rfl)
  · split
    · exact h.congr rfl rfl rfl rfl rfl rfl
    · exact travelFault_queueAndCycle h
  · split
    · exact h
    · exact travelFault_queueAndCycle h
  · next hphase =>
    split
    · exact h
    · have added := addCause_queueAndCycle .travelFault none h hphase
      simp only
      split
      · exact added.runs (startLockoutRaise_runs _) (.inr ((afterLockoutDepth_phase _).trans rfl))
      · exact added

theorem stopCycle_queueAndCycle (h : QueueAndCycle p) : QueueAndCycle (stopCycle p) := by
  have stopped : InCyclePhase p.cycle.phase = true → QueueAndCycle (if p.cycle.stopRequested = .none then
      enterRaising (p.withCycle { p.cycle with stopRequested := .stopped }) else p) := by
    intro hin
    split
    · exact requestedRaise_queueAndCycle _ h hin
    · exact h
  unfold stopCycle
  split
  · next hphase => exact abandonCycle_queueAndCycle h (by rw [hphase]; decide)
  · next hphase => exact stopped (by rw [hphase]; rfl)
  · next hphase => exact stopped (by rw [hphase]; rfl)
  · split
    · exact h.congr rfl rfl rfl rfl rfl rfl
    · exact h
  · exact h

theorem estopRecord_offQueue (p : Part) : (estopRecord p).offQueue = (outputsRested p).offQueue := by
  unfold estopRecord
  split
  · exact failCurrent_offQueue _ _
  · exact putBackCurrent_offQueue _

theorem cycleEstop_queueAndCycle (h : QueueAndCycle p) : QueueAndCycle (cycleEstop p) := by
  have rested : QueueAndCycle (outputsRested p) := h.congr rfl rfl rfl rfl rfl rfl
  have hq : QueueHolds (estopRecord p).queue none := by
    unfold estopRecord
    split
    · exact failCurrent_holds _ rested
    · exact putBackCurrent_holds rested
  have hcycle := cycle_of_offQueue (estopRecord_offQueue p)
  rw [cycleEstop_eq]
  split
  · next hphase =>
    have hlock : p.cycle.phase = .lockout := (congrArg Cycle.phase hcycle).symm.trans hphase
    refine addCause_queueAndCycle _ _ (queueAndCycle_lockout hq rfl rfl hphase ?_) hphase
    have hcause : (estopRecord p).cycle.causes = p.cycle.causes := (congrArg Cycle.causes hcycle).trans rfl
    exact fun hnone => h.controller.1.1 (hcause.symm.trans hnone) hlock
  · exact enterLockout_queueAndCycle _ _ hq rfl rfl

theorem cycleReleaseEnd_queueAndCycle (residuals : PerAxis (Option Int)) (h : QueueAndCycle p) :
    QueueAndCycle (cycleReleaseEnd p residuals) := by
  unfold cycleReleaseEnd
  split
  · next hphase =>
    have hlock : p.cycle.phase ≠ .lockout := by rw [hphase]; decide
    have outcome : (outcomeOf p.cycle.stopRequested).1 ≠ .inCycle := by cases p.cycle.stopRequested <;> decide
    have hq := h.queue
    simp only
    cases hcur : p.cycle.current with
    | none =>
      rw [hcur] at hq
      exact queueAndCycle_idle hq rfl rfl rfl (h.no_cause hlock) (h.ready hlock)
    | some n =>
      rw [hcur] at hq
      refine queueAndCycle_idle (finishRecord_holds outcome hq) rfl rfl rfl ?_ fun hs => h.ready hlock ?_
      · exact (congrArg Cycle.causes (finishRecord_cycle p n _ _ _)).trans (h.no_cause hlock)
      · exact (phase_of_ground (ground_of_offQueue (finishRecord_offQueue p n _ _ _))).symm.trans hs
  · exact h

/-! ### Samples -/

theorem positioned_queueAndCycle (h : QueueAndCycle p) : QueueAndCycle (positioned p) := by
  by_cases hphase : p.cycle.phase = .positioning
  · exact h.runs (positioned_runs p) (.inl (by rw [hphase]; rfl))
  · unfold positioned
    rw [if_neg fun hc => hphase hc.1]
    exact h

theorem updateAxis_cycle (p : Part) (x : Axis) : (updateAxis p x).1.cycle = p.cycle := by
  unfold updateAxis
  simp only
  split <;> rfl

theorem expireMove_cycle (p : Part) (x : Axis) : (expireMove p x).1.cycle = p.cycle := by
  unfold expireMove
  simp only
  split <;> rfl

theorem driveSample_queueAndCycle (ch : Channel) (h : QueueAndCycle p) : QueueAndCycle (driveSample ch p) := by
  unfold driveSample
  split
  · exact h
  · next x _ =>
    have updated := h.runs (updateAxis_runs p x) (.inr (by rw [updateAxis_cycle]))
    split
    · next q hq => rw [hq] at updated; exact positioned_queueAndCycle updated
    · next q hq => rw [hq] at updated; exact updated

theorem depthSample_queueAndCycle (u : TampUnit) (h : QueueAndCycle p) : QueueAndCycle (depthSample u p) := by
  by_cases hin : InCyclePhase p.cycle.phase = true
  · exact h.runs (depthSample_runs u p) (.inl hin)
  · refine h.runs (depthSample_runs u p) (.inr ?_)
    unfold depthSample
    split
    · next hphase => rw [hphase] at hin; exact absurd rfl hin
    · next hphase => rw [hphase] at hin; exact absurd rfl hin
    · refine (afterLockoutDepth_phase _).trans ?_
      split <;> rfl
    · rfl

theorem cycleSample_queueAndCycle (ch : Channel) (h : QueueAndCycle p) : QueueAndCycle (cycleSample ch p) := by
  unfold cycleSample
  split
  · exact depthSample_queueAndCycle _ h
  · split
    · unfold pressureSample
      split
      · next hphase =>
        exact h.runs ((endSqueezeOf_runs _ _ p).trans (afterSqueeze_runs enterPenetrating_runs _)) (.inl (by rw [hphase]; rfl))
      · exact h
    · exact h

/-- R171: the start settles at IDLE without a cause, or at LOCKOUT with one. -/
theorem settle_queueAndCycle (h : QueueAndCycle p) (hphase : p.cycle.phase = .lockout) : QueueAndCycle (settle p) := by
  obtain ⟨hcur, hval, hq⟩ := h.no_current (by rw [hphase]; rfl)
  have settled : QueueAndCycle { p with cycle := settledCycle p, phase := .ready } := by
    by_cases hidle : (allClear p && !p.lines.estop) = true
    · have hclear : allClear p = true ∧ p.lines.estop = false := by simpa using hidle
      refine queueAndCycle_idle hq hcur hval (if_pos hidle) ?_ nofun
      simp [settledCycle, hclear, noCauses]
    · refine queueAndCycle_lockout hq hcur hval (if_neg hidle) fun hnone => hidle ?_
      simpa [settledCycle, noCauses, and_comm] using hnone
  unfold settle
  simp only
  refine QueueAndCycle.of_offPort ?_ (afterHandOn_offPort _)
  split
  · exact settled.of_offPort rfl
  · exact settled.of_offPort rfl

theorem sampleEvent_queueAndCycle (ch : Channel) (level : Int) (h : QueueAndCycle p) :
    QueueAndCycle (sampleEvent ch level p) := by
  have recorded : QueueAndCycle (recordSample p ch level) := h.congr rfl rfl rfl rfl rfl rfl
  have taken := cycleSample_queueAndCycle ch (driveSample_queueAndCycle ch recorded)
  unfold sampleEvent
  simp only
  split
  · next hs =>
    have hstart : p.phase = .starting := by
      simp only [settlesWith, Bool.and_eq_true, decide_eq_true_eq] at hs
      exact hs.1
    have hground : (cycleSample ch (driveSample ch (recordSample p ch level))).phase = p.phase :=
      (phase_of_ground ((cycleSample_ground ch _).trans (driveSample_ground ch _))).trans rfl
    exact settle_queueAndCycle taken (taken.controller.2.1 (hground.trans hstart))
  · exact taken

/-! ### Pulses -/

theorem movePulse_queueAndCycle (lines : ScanLines) (dir : Move) (h : QueueAndCycle p) :
    QueueAndCycle (movePulse lines dir p) := by
  unfold movePulse
  split
  · exact h
  · simp only
    split
    · have stepped : QueueAndCycle (stepPulses p (pulsesAfter p dir)) := h.congr rfl rfl rfl rfl rfl rfl
      cases dir with
      | backward => exact renewAndStart_queueAndCycle stepped
      | forward =>
        have renewed := renewAndStart_queueAndCycle (passRecords_queueAndCycle (scannerAdvance_queueAndCycle lines stepped))
        exact (renewed.of_offPlan (contextAdvance_offPlan _ .h)).of_offPlan (contextAdvance_offPlan _ .v)
    · rcases refusePulse_cases p (decide (maxChainage < chainageOf p.travel p.store.working.pitch (pulsesAfter p dir)))
        with hp | ⟨high, low, e, hp⟩ <;> rw [hp]
      · exact h
      · exact QueueAndCycle.of_offPort (p := p.withTravel { p.travel with highLimit := high, lowLimit := low })
          (h.congr rfl rfl rfl rfl rfl rfl) (handEvent_offPort _ e)

theorem setMotion_queueAndCycle (m : Motion) (h : QueueAndCycle p) : QueueAndCycle (setMotion p m) :=
  ⟨h.queue.congr rfl rfl rfl rfl, h.controller.congr rfl rfl rfl rfl rfl⟩

theorem takePulse_queueAndCycle (lines : ScanLines) (dir : Move) (h : QueueAndCycle p) :
    QueueAndCycle (takePulse lines dir p) := by
  have pulsed : QueueAndCycle (p.withTravel { p.travel with
      lastMove := dir, standstillTimer := some p.store.working.standstillInterval }) := h.congr rfl rfl rfl rfl rfl rfl
  refine movePulse_queueAndCycle lines dir ?_
  unfold enterMoving
  split
  · exact pulsed
  · exact cycleMoving_queueAndCycle (setMotion_queueAndCycle .moving pulsed)

/-! ### Requests -/

theorem queueAndCycle_afterReset (st : Store) (lines : Lines) : QueueAndCycle (.afterReset st lines) := by
  refine queueAndCycle_lockout ⟨?_, ?_, rfl, nofun⟩ rfl rfl rfl (fun hnone => by cases hnone)
  · exact ⟨Nat.zero_le _, .nil, fun _ hr => absurd hr List.not_mem_nil, Nat.zero_le _, Nat.le_refl 1,
      (by decide : 1 ≤ 4294967295), nofun⟩
  · exact ⟨fun _ hr => absurd hr List.not_mem_nil, nofun⟩

theorem setOrigin_queueAndCycle (origin : Int) (d : Direction) (h : QueueAndCycle p) (hbusy : originBusy p = false) :
    QueueAndCycle (setOrigin p origin d) := by
  have hphase : p.cycle.phase = .idle := by
    simp only [originBusy, Bool.or_eq_false_iff, decide_eq_false_iff_not, not_not] at hbusy
    exact hbusy.1.1
  obtain ⟨hcur, _, hq⟩ := h.no_current (by rw [hphase]; rfl)
  rw [setOrigin_eq]
  refine renewAndStart_queueAndCycle (testStopPoint_queueAndCycle (h.ofQueue rfl rfl ?_))
  rw [hcur]
  exact hq.clear

theorem moveScanFront_queueAndCycle (h : QueueAndCycle p) : QueueAndCycle (moveScanFront p) := by
  unfold moveScanFront
  split
  · exact h
  · exact h.congr rfl rfl rfl rfl rfl rfl

theorem passToSupervisor_queueAndCycle (old new : Int) (h : QueueAndCycle p) : QueueAndCycle (passToSupervisor p old new) := by
  unfold passToSupervisor
  split
  · exact h
  · exact h.congr rfl rfl rfl rfl rfl rfl

theorem passFromPart_queueAndCycle (old new : Int) (h : QueueAndCycle p) : QueueAndCycle (passFromPart p old new) := by
  unfold passFromPart
  split
  · exact h.congr rfl rfl rfl rfl rfl rfl
  · exact h

theorem writeSetting_queueAndCycle (id : SettingId) (v : Int) (h : QueueAndCycle p) : QueueAndCycle (writeSetting p id v) := by
  have written : ∀ st, QueueAndCycle (p.withWorking st) := fun _ => h.congr rfl rfl rfl rfl rfl rfl
  cases id with
  | pitch =>
    show QueueAndCycle ((rebase p).withWorking _)
    unfold rebase
    split <;> exact h.congr rfl rfl rfl rfl rfl rfl
  | scannerOffset => exact moveScanFront_queueAndCycle (written _)
  | positionTolerance => exact renewAndStart_queueAndCycle (written _)
  | supervisorNode => exact passToSupervisor_queueAndCycle _ _ (written _)
  | partNode => exact passFromPart_queueAndCycle _ _ (written _)
  | _ => exact written _

theorem adoptSettings_queueAndCycle (new : Settings) (h : QueueAndCycle p) : QueueAndCycle (adoptSettings p new) := by
  have hadopted : QueueAndCycle (adopted p new) := by
    unfold adopted rebase
    split
    · exact h.congr rfl rfl rfl rfl rfl rfl
    · split <;> exact h.congr rfl rfl rfl rfl rfl rfl
  have moved : QueueAndCycle (if new.scannerOffset = p.store.working.scannerOffset then adopted p new
      else moveScanFront (adopted p new)) := by
    split
    · exact hadopted
    · exact moveScanFront_queueAndCycle hadopted
  have passed := passFromPart_queueAndCycle p.store.working.partNode new.partNode
    (passToSupervisor_queueAndCycle p.store.working.supervisorNode new.supervisorNode moved)
  have renewed : ∀ q : Part, QueueAndCycle q →
      QueueAndCycle (if new.positionTolerance = p.store.working.positionTolerance then q else renewAndStart q) := by
    intro q hq
    split
    · exact hq
    · exact renewAndStart_queueAndCycle hq
  rw [adoptSettings_eq]
  exact (renewed _ passed).congr rfl rfl rfl rfl rfl rfl

/-- What a block decides keeps the queue and the cycle legal. -/
theorem Decided.queueAndCycle {r : Request} (h : Decided r p q) (hready : p.phase = .ready) (hp : QueueAndCycle p) :
    QueueAndCycle q := by
  cases h with
  | originSet origin d _ hbusy => exact setOrigin_queueAndCycle origin d hp hbusy
  | settingWritten id v _ _ _ => exact writeSetting_queueAndCycle id v hp
  | loaded _ _ _ _ => exact adoptSettings_queueAndCycle _ hp
  | planRun i first start _ _ => exact hp.of_offPlan (runContext_offPlan p i first start)
  | planWoken i _ => exact hp.of_offPlan (wakeContext_offPlan p i)
  | planStopped i _ => exact hp.of_offPlan (stopContext_offPlan p i)
  | skipMarked n c => exact markSkip_queueAndCycle n c hp
  | skipCleared n => exact startEvent_queueAndCycle (markSkip_queueAndCycle n none hp)
  | haltCleared l _ => exact startEvent_queueAndCycle (testStopPoint_queueAndCycle (rearmLatch_queueAndCycle l hp))
  | modeSet m =>
    have set : QueueAndCycle (p.withCycle { p.cycle with mode := m }) := hp.congr rfl rfl rfl rfl rfl rfl
    unfold setMode
    split
    · exact startEvent_queueAndCycle set
    · exact set
  | cycleStarted x hx => exact startCycle_queueAndCycle hp hx
  | cycleStopped => exact stopCycle_queueAndCycle hp
  | unitsRaised _ _ =>
    unfold raiseUnits
    split
    · exact hp.congr rfl rfl rfl rfl rfl rfl
    · exact hp.runs (startLockoutRaise_runs p) (.inr ((afterLockoutDepth_phase _).trans rfl))
  | clearedInIdle _ => exact startEvent_queueAndCycle hp
  | lockoutCleared hphase _ _ =>
    obtain ⟨hcur, hval, hq⟩ := hp.no_current (by rw [hphase]; rfl)
    exact startEvent_queueAndCycle (queueAndCycle_idle hq hcur hval rfl rfl (by
      rw [show (clearLockout p).phase = .ready from hready]; decide))
  | _ => exact hp.congr rfl rfl rfl rfl rfl rfl

/-! ### Every command -/

/-- Every command keeps the queue and the cycle legal. -/
theorem Effect.queueAndCycle (h : Effect p q) (hp : QueueAndCycle p) : QueueAndCycle q := by
  cases h with
  | none => exact hp
  | powerOn _ => exact queueAndCycle_afterReset _ _
  | powerLoss left _ =>
    exact (queueAndCycle_afterReset { p.store with copy := copyLeft p.store left, save := Option.none } p.lines).congr
      rfl rfl rfl rfl rfl rfl
  | reset _ => exact queueAndCycle_afterReset _ _
  | received r =>
    unfold offerRequest
    split <;> exact hp.congr rfl rfl rfl rfl rfl rfl
  | sent m rest _ _ =>
    unfold sendHead
    split
    · exact queueAndCycle_afterReset _ _
    · exact hp.congr rfl rfl rfl rfl rfl rfl
  | linkRestarted _ =>
    unfold restartLink
    split
    · exact queueAndCycle_afterReset _ _
    · exact hp.congr rfl rfl rfl rfl rfl rfl
  | admitted source =>
    unfold admitInTurn
    split
    · exact hp.of_offPort (admitSource_offPort p source)
    · exact hp
  | sleeperDone x _ _ _ => exact renewAndStart_queueAndCycle (acceptRecord_queueAndCycle x hp)
  | sample ch level _ => exact sampleEvent_queueAndCycle ch level hp
  | pulse line1 line2 dir lines _ => exact takePulse_queueAndCycle lines dir (hp.congr rfl rfl rfl rfl rfl rfl)
  | standstillEntered _ _ =>
    exact startEvent_queueAndCycle (setMotion_queueAndCycle .standstill (hp.congr rfl rfl rfl rfl rfl rfl))
  | foldConfirmed arm folded _ hphase _ =>
    exact QueueAndCycle.runs (p := setFoldLine p arm folded) (hp.congr rfl rfl rfl rfl rfl rfl) (confirmUnits_runs _)
      (.inl (by rw [show (setFoldLine p arm folded).cycle.phase = _ from hphase]; rfl))
  | estopAsserted _ _ => exact cycleEstop_queueAndCycle (hp.congr rfl rfl rfl rfl rfl rfl)
  | moveExpired x _ _ => exact hp.runs (expireMove_runs p x) (.inr (by rw [expireMove_cycle]))
  | moveExpiredPositioned x _ _ =>
    exact positioned_queueAndCycle (hp.runs (expireMove_runs p x) (.inr (by rw [expireMove_cycle])))
  | releaseEnded _ _ _ => exact cycleReleaseEnd_queueAndCycle _ (hp.congr rfl rfl rfl rfl rfl rfl)
  | foldTimedOut _ hphase =>
    exact QueueAndCycle.runs (p := foldFaults p) (hp.congr rfl rfl rfl rfl rfl rfl) (endFolding_runs _)
      (.inl (by rw [show (foldFaults p).cycle.phase = _ from hphase]; rfl))
  | penetrationTimedOut _ hphase =>
    exact QueueAndCycle.runs (p := penetrationShort p) (hp.congr rfl rfl rfl rfl rfl rfl) (enterSqueezing_runs _)
      (.inl (by rw [show (penetrationShort p).cycle.phase = _ from hphase]; rfl))
  | squeezeTimedOut _ hphase =>
    exact hp.runs ((endSqueezeOf_runs _ _ p).trans (endSqueezing_runs enterPenetrating_runs _)) (.inl (by rw [hphase]; rfl))
  | raiseTimedOut _ hphase _ => exact hp.runs (endRaise_runs enterPenetrating_runs p) (.inl (by rw [hphase]; rfl))
  | raiseStuck _ _ _ => exact stuckFault_queueAndCycle hp
  | lockoutRaiseTimedOut _ _ _ => exact hp.runs (afterLockoutDepth_runs p) (.inr (afterLockoutDepth_phase p))
  | lockoutRaiseStuck _ hphase _ => exact addCause_queueAndCycle _ _ (hp.congr rfl rfl rfl rfl rfl rfl) hphase
  | saveEnded snapshot readBack _ _ =>
    exact QueueAndCycle.of_offPort (p := { p with store := savedStore p.store snapshot readBack })
      (hp.congr rfl rfl rfl rfl rfl rfl) (handEvent_offPort _ _)
  | request r rest a _ _ _ ha =>
    have hfound : QueueAndCycle (foundPart p r rest) := by
      rw [foundPart_eq]
      exact hp.congr rfl rfl rfl rfl rfl rfl
    have hdone : QueueAndCycle a.part := by
      rcases ha with h | ⟨hready, h⟩
      · rw [h]; exact hfound
      · exact h.queueAndCycle (by rw [foundPart_eq]; exact hready) hfound
    exact hdone.congr rfl rfl rfl rfl rfl rfl
  | _ => exact hp.congr rfl rfl rfl rfl rfl rfl

/-- Settles O59: a legal queue knows the current sleeper by its number, and each operation of the queue and the controller is
shown to keep that, from the start of a cycle on a record to its end, its fault or its abandonment. -/
theorem queueAndCycleStayLegal : Obligations.QueueAndCycleStayLegal := by
  unfold Obligations.QueueAndCycleStayLegal
  exact fun s t hq hc h => (queueAndCycle_iff _).1 ((step_effect h).queueAndCycle ((queueAndCycle_iff _).2 ⟨hq, hc⟩))

end

end Sys2Proof.Machine
end

section
/-! PROOF. One step and its command, the values after a reset, and power. -/

namespace Sys2Proof.Machine
open Sys2Proof Sys2Proof.Safety

/-- Settles O1, by the definition of the step. -/
theorem stepRunsTheFrontCommand : Obligations.StepRunsTheFrontCommand := by
  unfold Obligations.StepRunsTheFrontCommand
  exact fun s c rest => ⟨rfl, rfl⟩

/-- Every command, one by one, answers a next state that differs in the part alone. -/
theorem exec_next (c : Instr) (s : State) : ∃ p, exec c s = .next (s.withPart p) := by
  cases c <;> exact ⟨_, rfl⟩

/-- Settles O2: no arm of the machine faults or refuses, and none touches the commands that wait. -/
theorem everyCommandAnswersANextState : Obligations.EveryCommandAnswersANextState := by
  unfold Obligations.EveryCommandAnswersANextState
  exact exec_next

/-- Settles O4, field by field. -/
theorem blocksHoldTheirValuesAfterReset : Obligations.BlocksHoldTheirValuesAfterReset := by
  unfold Obligations.BlocksHoldTheirValuesAfterReset
  intro store lines p
  have patterns : ∀ pt ∈ p.scanner.patterns.toList, pt = Pattern.slotDefault := by
    simp [p, Part.afterReset, Scanner.afterReset, PerSlot.toList]
  refine ⟨rfl, rfl, rfl, rfl, rfl, fun ch => by cases ch <;> rfl, rfl, rfl, rfl, rfl, rfl, rfl, fun pt hpt => ?_, rfl,
    fun _ => rfl, fun i => by cases i <;> rfl, fun _ => rfl, rfl, rfl, rfl, rfl, fun x => by cases x <;> rfl, rfl, rfl, rfl,
    rfl, rfl, rfl, rfl, rfl, rfl, rfl, rfl, fun u => by cases u <;> rfl, rfl, rfl, rfl, fun u => by cases u <;> exact ⟨rfl, rfl⟩,
    fun x => by cases x <;> rfl, rfl⟩
  rw [patterns pt hpt]
  exact ⟨rfl, rfl, rfl, rfl, rfl, rfl⟩

/-- Settles O55: the base case of the laws of every moment, block by block. -/
theorem resetIsLegal : Obligations.ResetIsLegal := by
  unfold Obligations.ResetIsLegal
  obtain ⟨hhist, hstore, htrim, hcorr⟩ := registersLegal_afterReset (lines := .atReset) (st := .delivered)
    factory_consistent (fun _ h => by cases h)
  obtain ⟨htravel, hdrive⟩ := travelAndDrive_afterReset .delivered .atReset
  obtain ⟨hqueue, hcycle⟩ := (queueAndCycle_iff _).1 (queueAndCycle_afterReset .delivered .atReset)
  exact ⟨portWithin_afterReset .delivered .atReset, hhist, hstore, htrim, hcorr, htravel, hqueue, hcycle, hdrive,
    planLegal_afterReset .delivered .atReset, contextsAhead_afterReset .delivered .atReset⟩

/-! ### Power (R199, R203) -/

/-- An event of a part without power. -/
theorem next_of_unpowered {s : State} {o : Host.Outcome State Fault Refusal} {p : Part} (h : s.part.powered = false)
    (ho : o = .next (s.withPart (if s.part.powered then p else s.part))) : o = .next s := by
  rw [ho, if_neg (by simp [h])]
  rfl

/-- The input lines as a command leaves them without power. -/
def linesSeen (lines : Lines) : Instr → Lines
  | .odometerPulse l1 l2 _ => { lines with odo1 := l1, odo2 := l2 }
  | .foldConfirm arm folded => { lines with folds := lines.folds.set arm folded }
  | .emergencyStopAsserted => { lines with estop := true }
  | .emergencyStopReleased => { lines with estop := false }
  | _ => lines

/-- Log entry 1: without power only the input lines are seen to change. -/
theorem exec_unpowered (c : Instr) {s : State} (h : s.part.powered = false) (hc : c ≠ .powerOn) :
    exec c s = .next { s with part := { s.part with lines := linesSeen s.part.lines c } } := by
  cases c with
  | powerOn => exact absurd rfl hc
  | odometerPulse l1 l2 lines =>
    show Host.Outcome.next (s.withPart (if s.part.powered then _ else _)) = _
    rw [if_neg (by simp [h])]
    rfl
  | foldConfirm arm folded =>
    have hp : ¬ ((setFoldLine s.part arm folded).powered ∧ (setFoldLine s.part arm folded).cycle.phase = .positioning ∧
        (setFoldLine s.part arm folded).cycle.folding = .inProgress) := by
      rw [show (setFoldLine s.part arm folded).powered = false from h]
      simp
    simp only [exec, execFoldConfirm, if_neg hp]
    rfl
  | emergencyStopAsserted =>
    show Host.Outcome.next (s.withPart (if s.part.powered ∧ s.part.lines.estop = false then _ else _)) = _
    rw [if_neg (by simp [h])]
    rfl
  | emergencyStopReleased => rfl
  | _ => exact next_of_unpowered h rfl

/-- Settles O3: without power every command but POWER ON comes to the lines alone; the load step of a power-on turns on the copy;
and a loss of power leaves the copy as R199 says. -/
theorem powerComesAndGoes : Obligations.PowerComesAndGoes := by
  unfold Obligations.PowerComesAndGoes
  refine ⟨fun c s h hc => ⟨_, exec_unpowered c h hc, by cases c <;> rfl⟩, fun s => ⟨fun hoff hvalid => ?_, fun hoff hbad => ?_, fun hon left => ?_⟩⟩
  · simp only [exec, execPowerOn, loadedStore, hoff, hvalid, Bool.false_eq_true, if_false, if_true]
  · simp only [exec, execPowerOn, loadedStore, hoff, hbad, Bool.false_eq_true, if_false]
  · refine ⟨_, eventOf_powered (f := fun p => unpowered p left) hon, rfl, rfl, rfl, ?_⟩
    show (if s.part.store.save.isSome then left else s.part.store.copy) = _
    cases s.part.store.save <;> rfl

end Sys2Proof.Machine
end

section
/-! PROOF. How a request is decided up to its block (R177 to R179), the port's own requests, frames, the link and PART RESET. -/

namespace Sys2Proof.Machine
open Sys2Proof Sys2Proof.Safety

/-! ### Taking a request -/

/-- R177: the commands of the catalogue take the oldest request of their kind. -/
theorem exec_taken {c : Instr} {kind : Nat} {flen : Option Nat} (h : takenBy c = some (kind, flen)) :
    ∃ block, ∀ s, exec c s = takeOldest (· == kind) flen block s := by
  cases c <;> cases h <;> exact ⟨_, fun _ => rfl⟩

theorem classOfKind_data {kind : Nat} (h : kind ∈ dataKinds) : classOfKind kind = some .data := by
  revert h kind; decide

theorem classOfKind_control {kind : Nat} (h : kind ∈ controlKinds) : classOfKind kind = some .control := by
  revert h kind; decide

theorem classOfKind_read {kind : Nat} (h : kind ∈ readKinds) : classOfKind kind = some .read := by
  revert h kind; decide

theorem classOfKind_missing {kind : Nat} (hd : kind ∉ dataKinds) (hc : kind ∉ controlKinds) (hr : kind ∉ readKinds) :
    classOfKind kind = none := by
  have hlisted : ∀ x ∈ catalogue, x.1 ∈ dataKinds ∨ x.1 ∈ controlKinds ∨ x.1 ∈ readKinds := by decide
  refine Option.map_eq_none_iff.2 (List.find?_eq_none.2 fun x hx heq => ?_)
  have heq : x.1 = kind := by simpa using heq
  rcases hlisted x hx with h | h | h
  · exact hd (heq ▸ h)
  · exact hc (heq ▸ h)
  · exact hr (heq ▸ h)

theorem takenBy_listed {c : Instr} {kind : Nat} {flen : Option Nat} (h : takenBy c = some (kind, flen)) :
    kind ∈ dataKinds ∨ kind ∈ controlKinds ∨ kind ∈ readKinds := by
  cases c <;> cases h <;> decide

/-- The sender of a request is within the class of its kind, as the tables of section 10.6 list it. -/
theorem entitled_of_listed {p : Part} {kind : Nat} {node : Int}
    (hlisted : kind ∈ dataKinds ∨ kind ∈ controlKinds ∨ kind ∈ readKinds)
    (hdata : kind ∈ dataKinds → node = p.store.working.supervisorNode)
    (hcontrol : kind ∈ controlKinds → node = p.port.authority) :
    ∃ c, classOfKind kind = some c ∧ entitled p c node = true := by
  rcases hlisted with h | h | h
  · exact ⟨_, classOfKind_data h, by simp [entitled, hdata h]⟩
  · exact ⟨_, classOfKind_control h, by simp [entitled, hcontrol h]⟩
  · exact ⟨_, classOfKind_read h, rfl⟩

@[simp] theorem entitled_foundPart (p : Part) (r : Request) (rest : List Request) (c : RequestClass) (node : Int) :
    entitled (foundPart p r rest) c node = entitled p c node := by
  cases c <;> simp [entitled]

theorem tooShort_iff (r : Request) : r.tooShort = true ↔ r.data.length < 2 ∨ r.data.length < r.fieldLength + 2 := by
  simp [Request.tooShort]

section
variable {accepts : Nat → Bool} {flen : Option Nat} {block : Option CorrWindow → Request → Part → Answer} {s : State}
  {r : Request} {rest : List Request}

/-- R177: the oldest request leaves the receive queue and is answered. -/
theorem takeOldest_dealt (h : CanTake s r rest) (ha : accepts r.kind = true) :
    takeOldest accepts flen block s = .next (s.withPart (repliedPart s.part.store.working.partNode r
      (answerTo (foundPart s.part r rest) r flen (block s.part.corr.window)))) := by
  obtain ⟨hp, hx, ht, hq⟩ := h
  have hc : (canTake s.part && accepts r.kind) = true := by simp [canTake, ht, hx, ha]
  rw [takeOldest, eventOf_powered hp, hq]
  simp only [hc, if_true]
  rfl

/-- R177: nothing is taken when the transmit queue is full, a PART RESET waits, or no request of the kind is the oldest. -/
theorem takeOldest_idle
    (h : canTake s.part = false ∨ s.part.port.rx = [] ∨ ∃ r rest, s.part.port.rx = r :: rest ∧ accepts r.kind = false) :
    takeOldest accepts flen block s = .next s := by
  cases hp : s.part.powered
  · exact eventOf_unpowered hp
  · rw [takeOldest, eventOf_powered hp]
    rcases h with h | h | ⟨r, rest, h, hk⟩
    · cases s.part.port.rx <;> simp [h]
    · simp [h]
    · simp [h, hk]

theorem answered_refused {a : Answer} {st : Status} (h : a = .refuse (foundPart s.part r rest) st) :
    (.next (s.withPart (repliedPart s.part.store.working.partNode r a)) : Host.Outcome State Fault Refusal) =
      .next (refusedWith s r rest st.code) := by
  rw [h, foundPart_eq, repliedPart_refuse]
  rfl

end

section
variable {p : Part} {r : Request} {flen : Option Nat} {block : Request → Part → Answer}

theorem answerTo_starting (h : p.phase = .starting) : answerTo p r flen block = .refuse p .busy := by simp [answerTo, h]

theorem answerTo_short (h : p.phase = .ready) (hs : r.tooShort = true) : answerTo p r flen block = .refuse p .badLength := by
  simp [answerTo, h, hs]

theorem answerTo_unknown (h : p.phase = .ready) (hs : r.tooShort = false) (hk : classOfKind r.kind = none) :
    answerTo p r flen block = .refuse p .unknownKind := by
  simp [answerTo, h, hs, hk]

theorem answerTo_unentitled {c : RequestClass} (h : p.phase = .ready) (hs : r.tooShort = false)
    (hk : classOfKind r.kind = some c) (he : entitled p c r.node = false) :
    answerTo p r flen block = .refuse p .notAuthorised := by
  simp [answerTo, h, hs, hk, he]

theorem answerTo_wrongLength {c : RequestClass} (h : p.phase = .ready) (hs : r.tooShort = false)
    (hk : classOfKind r.kind = some c) (he : entitled p c r.node = true) {n : Nat} (hf : flen = some n)
    (hn : n ≠ r.fieldLength) : answerTo p r flen block = .refuse p .badLength := by
  simp [answerTo, h, hs, hk, he, hf, hn]

end

/-- The first two steps of R177 refuse whatever the kind. -/
theorem takeOldest_refusedEarly {accepts : Nat → Bool} {flen : Option Nat}
    {block : Option CorrWindow → Request → Part → Answer} {s : State} {r : Request} {rest : List Request}
    (h : CanTake s r rest) (ha : accepts r.kind = true) :
    (s.part.phase = .starting → takeOldest accepts flen block s = .next (refusedWith s r rest 2)) ∧
    (s.part.phase = .ready → r.data.length < 2 ∨ r.data.length < r.fieldLength + 2 →
      takeOldest accepts flen block s = .next (refusedWith s r rest 5)) := by
  constructor
  · intro hphase
    exact (takeOldest_dealt h ha).trans (answered_refused (answerTo_starting (by simpa using hphase)))
  · intro hphase hshort
    exact (takeOldest_dealt h ha).trans
      (answered_refused (answerTo_short (by simpa using hphase) ((tooShort_iff r).2 hshort)))

/-- Settles O8, step by step of R177. -/
theorem requestsAreDecidedInOrder : Obligations.RequestsAreDecidedInOrder := by
  unfold Obligations.RequestsAreDecidedInOrder
  refine ⟨fun c kind flen s r rest hc htake hkind => ?_, fun s r rest htake hd hc hr => ?_, fun c kind flen s hc hidle => ?_⟩
  · obtain ⟨block, hexec⟩ := exec_taken hc
    subst hkind
    obtain ⟨hstarting, hshort⟩ := takeOldest_refusedEarly (accepts := (· == r.kind)) (flen := flen) (block := block) htake
      (beq_self_eq_true _)
    have hdealt := takeOldest_dealt (accepts := (· == r.kind)) (flen := flen) (block := block) htake (beq_self_eq_true _)
    rw [hexec]
    refine ⟨hstarting, hshort, fun h hk hnode => ?_, fun h hk hnode => ?_, fun h hdata hcontrol ⟨n, hn, hne⟩ => ?_⟩
    · exact hdealt.trans (answered_refused (answerTo_unentitled (by simpa using h.2.1) (tooShort_eq_false h)
        (classOfKind_data hk) (by simpa [entitled] using hnode)))
    · exact hdealt.trans (answered_refused (answerTo_unentitled (by simpa using h.2.1) (tooShort_eq_false h)
        (classOfKind_control hk) (by simpa [entitled] using hnode)))
    · obtain ⟨cls, hcls, hentitled⟩ := entitled_of_listed (takenBy_listed hc) hdata hcontrol
      exact hdealt.trans (answered_refused (answerTo_wrongLength (by simpa using h.2.1) (tooShort_eq_false h) hcls
        (by simpa using hentitled) hn hne))
  · have hclass := classOfKind_missing hd hc hr
    have haccepts : (classOfKind r.kind).isNone = true := by rw [hclass]; rfl
    obtain ⟨hstarting, hshort⟩ := takeOldest_refusedEarly (accepts := fun k => (classOfKind k).isNone) (flen := none)
      (block := fun _ _ p => .refuse p .unknownKind) htake haccepts
    refine ⟨hstarting, hshort, fun h => ?_⟩
    exact (takeOldest_dealt (accepts := fun k => (classOfKind k).isNone) htake haccepts).trans
      (answered_refused (answerTo_unknown (by simpa using h.2.1) (tooShort_eq_false h) hclass))
  · obtain ⟨block, hexec⟩ := exec_taken hc
    rw [hexec]
    refine takeOldest_idle ?_
    rcases hidle with h | h | ⟨r, rest, h, hne⟩
    · exact .inl (by simp [canTake]; omega)
    · exact .inr (.inl h)
    · exact .inr (.inr ⟨r, rest, h, by simpa using hne⟩)

/-! ### The port's own requests -/

section
variable {s : State} {r : Request} {rest : List Request} {a : Answer}

/-- A block's answer in other terms. -/
theorem block_answers {b : Answer} (h : a = b) :
    (.next (s.withPart (repliedPart s.part.store.working.partNode r a)) : Host.Outcome State Fault Refusal) =
      .next (s.withPart (repliedPart s.part.store.working.partNode r b)) := by
  rw [h]

/-- A block's refusal, in the terms of the claims. -/
theorem block_refused {st : Status} (h : a = .refuse (found s.part r rest) st) :
    (.next (s.withPart (repliedPart s.part.store.working.partNode r a)) : Host.Outcome State Fault Refusal) =
      .next (refusedWith s r rest st.code) :=
  answered_refused (by rw [foundPart_eq]; exact h)

/-- A block's OK, in the terms of the claims. -/
theorem block_ok {q : Part} {fs : List Byte} (h : a = .ok q fs) :
    (.next (s.withPart (repliedPart s.part.store.working.partNode r a)) : Host.Outcome State Fault Refusal) =
      .next (replied s q r 0 fs) := by
  rw [h, repliedPart_ok]

/-- A block's OK whose part and fields are given in other terms. -/
theorem block_okWith {q q' : Part} {fs fs' : List Byte} (h : a = .ok q fs) (hq : q = q') (hfs : fs = fs') :
    (.next (s.withPart (repliedPart s.part.store.working.partNode r a)) : Host.Outcome State Fault Refusal) =
      .next (replied s q' r 0 fs') :=
  block_ok (by rw [h, hq, hfs])

/-- A block's CLAMPED, in the terms of the claims. -/
theorem block_clamped {q : Part} {fs : List Byte} (h : a = ⟨q, .clamped, fs⟩) :
    (.next (s.withPart (repliedPart s.part.store.working.partNode r a)) : Host.Outcome State Fault Refusal) =
      .next (replied s q r 1 fs) := by
  rw [h, repliedPart_clamped]

end

/-- Settles O9, request by request. -/
theorem thePortAnswersItsOwnRequests : Obligations.ThePortAnswersItsOwnRequests := by
  unfold Obligations.ThePortAnswersItsOwnRequests
  refine ⟨fun s r rest h hf => ?_, fun s r rest h hf => ?_, fun s r rest h hf => ⟨fun hbad => ?_, fun hlow hpart => ?_⟩,
    fun s r rest h hf => ?_⟩
  · refine (read_taken h rfl hf).trans (block_okWith rfl rfl ?_)
    have hover : byte (bit s.part.port.overrun) = if s.part.port.overrun then (1 : Byte) else 0 := by
      cases s.part.port.overrun <;> rfl
    show statusFields s.part = _
    simp only [statusFields, hover]
    cases s.part.cycle.current <;> cases s.part.queue.latch <;> rfl
  · exact (read_taken h rfl hf).trans (block_ok rfl)
  · refine (control_taken h rfl hf).trans (block_refused (if_pos ?_))
    exact hbad.imp (fun h => by exact_mod_cast h) id
  · refine (control_taken h rfl hf).trans (block_ok (if_neg ?_))
    rintro (hhigh | heq)
    · exact absurd hlow (by exact_mod_cast not_le.2 hhigh)
    · exact hpart heq
  · exact (data_taken h rfl hf).trans (block_ok rfl)

end Sys2Proof.Machine
end

section
/-! PROOF. Frames in and out, the link restart, PART RESET, and the sample that settles the start (R171, R174, R176, R182, R187,
R203, R204). -/

namespace Sys2Proof.Machine
open Sys2Proof Sys2Proof.Safety

/-! ### PART RESET (R204) -/

section
variable {s : State}

/-- While a PART RESET waits, no request is taken and no report admitted. -/
theorem canTake_of_resetPending (h : s.part.port.resetPending = true) : canTake s.part = false := by simp [canTake, h]

theorem canAdmit_of_resetPending {p : Part} (h : p.port.resetPending = true) : canAdmit p = false := by simp [canAdmit, h]

theorem admitInTurn_of_cannot {p : Part} (src : ReportSource) (h : canAdmit p = false) : admitInTurn src p = p := by
  simp [admitInTurn, h]

/-- R183: without two free places, or with a PART RESET waiting, no report is admitted. -/
theorem admissions_idle (hp : s.part.powered = true) (h : canAdmit s.part = false) :
    exec .halt s = .next s ∧ exec .stopPoint s = .next s ∧ exec .event s = .next s ∧ exec .sleeperDone s = .next s := by
  refine ⟨?_, ?_, ?_, ?_⟩
  · exact (eventOf_powered hp).trans (by rw [admitInTurn_of_cannot _ h, State.withPart_self])
  · exact (eventOf_powered hp).trans (by rw [admitInTurn_of_cannot _ h, State.withPart_self])
  · show execEvent s = _
    rw [execEvent, eventOf_powered hp]
    split
    · rw [admitInTurn_of_cannot _ h, State.withPart_self]
    · rfl
  · show execSleeperDone s = _
    rw [execSleeperDone, eventOf_powered hp, h]
    rfl

/-- R182, R204: the frame that leaves the transmit queue empty is the reply, and the reset takes effect. -/
theorem resetPending_sent (hp : s.part.powered = true) (hx : s.part.port.resetPending = true)
    (hlink : s.part.port.link = .on) {m : Message} (htx : s.part.port.tx = [m]) :
    exec .frameTransmitted s = .next (s.withPart (Part.afterReset s.part.store s.part.lines)) ∧
    exec .partResetTakesEffect s = .next (s.withPart (Part.afterReset s.part.store s.part.lines)) := by
  constructor
  · show execFrameTransmitted s = _
    rw [execFrameTransmitted, eventOf_powered hp, hlink, htx]
    simp [sendHead, hx, resetPart]
  · show execPartResetTakesEffect s = _
    rw [execPartResetTakesEffect, eventOf_powered hp, if_pos hx, hlink, htx]
    rfl

/-- R187, R204: a link restart before the reply has been sent loses it, and the reset takes effect. -/
theorem resetPending_lost (hp : s.part.powered = true) (hx : s.part.port.resetPending = true)
    (hlink : s.part.port.link = .busOff) :
    exec .linkRestart s = .next (s.withPart (Part.afterReset s.part.store s.part.lines)) ∧
    exec .partResetTakesEffect s = .next (s.withPart (Part.afterReset s.part.store s.part.lines)) := by
  constructor
  · show execLinkRestart s = _
    rw [execLinkRestart, eventOf_powered hp, hlink]
    simp [restartLink, hx, resetPart]
  · show execPartResetTakesEffect s = _
    rw [execPartResetTakesEffect, eventOf_powered hp, if_pos hx, hlink]
    rfl

end

/-- Settles O5: the request, the sending or the loss of its reply, and the stopped port in between. -/
theorem partResetTakesEffectWhenItsReplyIsSent : Obligations.PartResetTakesEffectWhenItsReplyIsSent := by
  unfold Obligations.PartResetTakesEffectWhenItsReplyIsSent
  refine ⟨fun s r rest h hf => ⟨fun hsave => ?_, fun hsave => ?_⟩, fun s hp hx => ⟨?_, ?_, ?_⟩⟩
  · exact (data_taken h rfl hf).trans (block_refused (if_pos (Option.isSome_iff_ne_none.2 hsave)))
  · exact (data_taken h rfl hf).trans (block_ok (if_neg (by simp [found, hsave])))
  · rintro hlink ⟨m, htx⟩
    exact resetPending_sent hp hx hlink htx
  · exact resetPending_lost hp hx
  · obtain ⟨hhalt, hstop, hevent, hdone⟩ := admissions_idle hp (canAdmit_of_resetPending hx)
    rintro c (hc | hc)
    · obtain ⟨⟨kind, flen⟩, hc⟩ := Option.ne_none_iff_exists'.1 hc
      obtain ⟨block, hexec⟩ := exec_taken hc
      rw [hexec]
      exact takeOldest_idle (.inl (canTake_of_resetPending hx))
    · simp only [List.mem_cons, List.not_mem_nil, or_false] at hc
      rcases hc with rfl | rfl | rfl | rfl | rfl
      · show execUnknownKindRequest s = _
        exact takeOldest_idle (.inl (canTake_of_resetPending hx))
      · exact hhalt
      · exact hstop
      · exact hevent
      · exact hdone

/-! ### Frames and the link (R174, R176, R182, R187) -/

/-- R174: a base data frame of kind 1..47 from another node is a request. -/
theorem requestOf_some {partNode : Int} {f : BusFrame} (hext : f.extended = false) (hrem : f.remote = false)
    (hlow : 16 ≤ f.ident) (hhigh : f.ident < 768) (hnode : ((f.ident % 16 : Nat) : Int) ≠ partNode) :
    requestOf partNode f = some { kind := f.ident / 16, node := ((f.ident % 16 : Nat) : Int), data := f.data } := by
  have hkind : 1 ≤ f.ident / 16 ∧ f.ident / 16 ≤ 47 := by omega
  simp only [requestOf, hext, hrem, decide_eq_true hkind, decide_eq_true hnode]
  rfl

/-- R174: any other frame is ignored. -/
theorem requestOf_none {partNode : Int} {f : BusFrame}
    (h : ¬ (f.extended = false ∧ f.remote = false ∧ 16 ≤ f.ident ∧ f.ident < 768 ∧
      ((f.ident % 16 : Nat) : Int) ≠ partNode)) : requestOf partNode f = none := by
  refine if_neg fun hall => h ?_
  simp only [Bool.and_eq_true, Bool.not_eq_true', decide_eq_true_eq] at hall
  obtain ⟨⟨⟨hext, hrem⟩, hkind⟩, hnode⟩ := hall
  exact ⟨hext, hrem, by omega, by omega, hnode⟩

/-- Settles O7: the frame received by its request and the queue's length, the frame sent by the head of the transmit queue. -/
theorem framesAreReceivedAndSent : Obligations.FramesAreReceivedAndSent := by
  unfold Obligations.FramesAreReceivedAndSent
  refine ⟨fun s f hp => ⟨?_, ?_, ?_⟩, fun s hp => ⟨?_, ?_, ?_, ?_, ?_⟩⟩
  · rintro hlink ⟨hext, hrem, hlow, hhigh, hnode⟩ hlen
    show execFrameReceived f s = _
    rw [execFrameReceived, eventOf_powered hp, hlink, requestOf_some hext hrem hlow hhigh hnode]
    simp only [offerRequest, if_pos hlen]
    rfl
  · rintro hlink ⟨hext, hrem, hlow, hhigh, hnode⟩ hlen
    show execFrameReceived f s = _
    rw [execFrameReceived, eventOf_powered hp, hlink, requestOf_some hext hrem hlow hhigh hnode]
    simp only [offerRequest, if_neg (not_lt.2 hlen)]
    rfl
  · intro hignored
    show execFrameReceived f s = _
    rw [execFrameReceived, eventOf_powered hp]
    rcases hignored with hlink | hnot
    · rw [hlink]; rfl
    · rw [requestOf_none hnot]
      cases s.part.port.link <;> rfl
  · intro m rest hlink htx hmore
    show execFrameTransmitted s = _
    rw [execFrameTransmitted, eventOf_powered hp, hlink, htx]
    have hsend : ¬ (s.part.port.resetPending = true ∧ rest = []) := by
      rintro ⟨hx, hrest⟩
      exact hmore.elim (by simp [hx]) (absurd hrest)
    simp only [sendHead, if_neg hsend]
    rfl
  · intro hnone
    show execFrameTransmitted s = _
    rw [execFrameTransmitted, eventOf_powered hp]
    rcases hnone with hlink | htx
    · rw [hlink]; rfl
    · rw [htx]
      cases s.part.port.link <;> rfl
  · show execBusOff s = _
    exact eventOf_powered hp
  · intro hlink hx
    show execLinkRestart s = _
    rw [execLinkRestart, eventOf_powered hp, hlink]
    simp [restartLink, hx]
  · intro hlink
    show execLinkRestart s = _
    rw [execLinkRestart, eventOf_powered hp, hlink]
    rfl

/-! ### The sample that settles the start (R171, R203) -/

theorem sampled_ground (p : Part) (ch : Channel) (level : Int) :
    (cycleSample ch (driveSample ch (recordSample p ch level))).ground = (recordSample p ch level).ground :=
  (cycleSample_ground ch _).trans (driveSample_ground ch _)

theorem depthsReady_iff (p : Part) :
    depthsReady p = true ↔ ∀ u, 8 ≤ (p.history.get (depthChannel u)).length := by
  rw [depthsReady, allUnits_all]
  simp only [decide_eq_true_eq]

theorem settlesWith_of_ready {p : Part} {ch : Channel} {level : Int} (hphase : p.phase = .starting)
    (h : ∀ u, 8 ≤ ((recordSample p ch level).history.get (depthChannel u)).length) : settlesWith p ch level = true := by
  simp [settlesWith, hphase, (depthsReady_iff _).2 h]

/-- R171: the units are all clear when each of the four stands at or above the clear height. -/
theorem allClear_eq (p : Part) : allClear p =
    decide (unitDepth p .lo ≤ 200 ∧ unitDepth p .li ≤ 200 ∧ unitDepth p .ri ≤ 200 ∧ unitDepth p .ro ≤ 200) := by
  rw [Bool.eq_iff_iff, allClear_iff, decide_eq_true_eq]
  constructor
  · exact fun h => ⟨h .lo, h .li, h .ri, h .ro⟩
  · rintro ⟨hlo, hli, hri, hro⟩ (_ | _ | _ | _)
    · exact hlo
    · exact hli
    · exact hri
    · exact hro

/-- R171, R203: what settling the start hands on, with the cycle's initial state named. -/
theorem settle_eq {q : Part} {c : Cycle} (h : settledCycle q = c) :
    settle q = afterHandOn
      (if c.phase = .lockout then
        holdEvent (holdEvent { q with cycle := c, phase := .ready } (.started q.store.status c.phase c.causes))
          (.lockout c.causes (settlingCause q) none)
      else holdEvent { q with cycle := c, phase := .ready } (.started q.store.status c.phase c.causes)) := by
  rw [← h]
  rfl

/-- Settles O6: the sample settles the start, and START_UP_SETTLING is that sample alone. -/
theorem theEighthDepthSampleSettlesTheStart : Obligations.TheEighthDepthSampleSettlesTheStart := by
  unfold Obligations.TheEighthDepthSampleSettlesTheStart
  intro s ch level hp hphase
  constructor
  · intro hdepths q clear c started t
    have hsettles := settlesWith_of_ready hphase hdepths
    have hground : q.ground = (recordSample s.part ch level).ground := sampled_ground s.part ch level
    have hestop : q.lines.estop = s.part.lines.estop := congrArg (fun g => g.lines.estop) hground
    have hstatus : q.store.status = s.part.store.status := congrArg (fun g => g.store.status) hground
    have hcycle : settledCycle q = c := by
      simp only [settledCycle, allClear_eq, hestop]
      rfl
    have hsettle : s.withPart (settle q) = t := by
      rw [settle_eq hcycle, settlingCause, hestop, hstatus]
    have hsample : sampleEvent ch level s.part = settle q := by simp only [sampleEvent, hsettles, if_true]; rfl
    constructor
    · show execStartUpSettling ch level s = _
      rw [execStartUpSettling, eventOf_powered hp, if_pos hsettles, hsample, hsettle]
    · show execChannelSample ch level s = _
      rw [execChannelSample, eventOf_powered hp, hsample, hsettle]
  · rintro ⟨u, hu⟩
    have hnot : ¬ settlesWith s.part ch level = true := fun h => by
      rw [settlesWith, Bool.and_eq_true, depthsReady_iff] at h
      exact absurd (h.2 u) (not_le.2 hu)
    show execStartUpSettling ch level s = _
    rw [execStartUpSettling, eventOf_powered hp, if_neg hnot, State.withPart_self]

end Sys2Proof.Machine
end

section
/-! PROOF. The port's report arbiter (R183 to R186, R54), and the bytes of reports and sleeper records (R185, R192). -/

namespace Sys2Proof.Machine
open Sys2Proof Sys2Proof.Safety

/-! ### The pending-event set -/

namespace PendingEvents
variable (s : PendingEvents)

theorem get_put (k j : EventKind) (e : Option PendingEvent) : (s.put k e).get j = if j = k then e else s.get j := by
  cases k <;> cases j <;> rfl

theorem put_put (k : EventKind) (e e' : Option PendingEvent) : (s.put k e).put k e' = s.put k e' := by
  cases k <;> rfl

theorem put_none_of_get {s : PendingEvents} {k : EventKind} (h : s.get k = none) : s.put k none = s := by
  obtain ⟨_, _, _, _, _, _⟩ := s
  cases k <;> cases h <;> rfl

end PendingEvents

/-! ### What the arbiter admits -/

/-- R186: the message of a report, with the report sequence as it stands. -/
def reportOf (p : Part) (kind : Nat) (fields : List Byte) : Message :=
  messageOf kind p.store.working.partNode (byte p.port.seq :: byte fields.length :: fields)

/-- R186: the port once a message of a report has joined the transmit queue. -/
def admittedPort (port : Port) (m : Message) : Port := { port with tx := port.tx ++ [m], seq := (port.seq + 1) % 256 }

section
variable {p : Part}

theorem canAdmit_iff : canAdmit p = true ↔ p.port.tx.length ≤ 6 ∧ p.port.resetPending = false := by
  simp [canAdmit]

theorem canAdmit_of (hlen : p.port.tx.length ≤ 6) (hx : p.port.resetPending = false) : canAdmit p = true :=
  canAdmit_iff.2 ⟨hlen, hx⟩

theorem canAdmit_eq_false (h : 7 ≤ p.port.tx.length ∨ p.port.resetPending = true) : canAdmit p = false := by
  rw [← Bool.not_eq_true, canAdmit_iff]
  rintro ⟨hlen, hx⟩
  exact h.elim (by omega) (by simp [hx])

theorem admitSource_halt {h : HaltReport} (hh : p.port.halt = some h) : admitSource p .halt =
    { p with port := { admittedPort p.port (reportOf p 114 (writeInt 4 h.sleeper ++ writeInt 4 h.centre)) with halt := none } } := by
  simp only [admitSource, admitHalt, hh]
  rfl

theorem admitSource_stop {r : StopReport} (hr : p.port.stop = some r) : admitSource p .stopPoint =
    { p with port := { admittedPort p.port (reportOf p 112 (stopFields r)) with stop := none } } := by
  simp only [admitSource, admitStop, hr]
  rfl

theorem admitSource_event {k : EventKind} {e : PendingEvent} (he : p.port.events.get k = some e) : admitSource p (.event k) =
    { p with port := { admittedPort p.port
        (reportOf p 115 ([byte e.event.kind.code, byte e.merged] ++ eventDetails e.event)) with
      events := p.port.events.put k none } } := by
  simp only [admitSource, admitEvent, he]
  rfl

/-! ### Whose turn it is -/

theorem firstWaiting_halt {port : Port} {h : HaltReport} (hh : port.halt = some h) : firstWaiting port = some .halt := by
  simp [firstWaiting, hh]

theorem firstWaiting_stop {port : Port} {r : StopReport} (hh : port.halt = none) (hr : port.stop = some r) :
    firstWaiting port = some .stopPoint := by
  simp [firstWaiting, hh, hr]

theorem firstWaiting_event {port : Port} {before after : List EventKind} {k : EventKind} {e : PendingEvent}
    (hh : port.halt = none) (hr : port.stop = none) (hsplit : eventOrder = before ++ k :: after)
    (hbefore : ∀ j ∈ before, port.events.get j = none) (he : port.events.get k = some e) :
    firstWaiting port = some (.event k) := by
  have hfind : eventOrder.find? (fun k => (port.events.get k).isSome) = some k :=
    List.find?_eq_some_iff_append.2 ⟨by simp [he], before, after, hsplit, fun j hj => by simp [hbefore j hj]⟩
  simp [firstWaiting, hh, hr, hfind]

theorem firstWaiting_none {port : Port} (hh : port.halt = none) (hr : port.stop = none) (he : ∀ k, port.events.get k = none) :
    firstWaiting port = none := by
  simp [firstWaiting, hh, hr, he]

/-- The only EVENT that waits is the first, wherever its kind stands in the order. -/
theorem firstWaiting_onlyEvent {port : Port} {k : EventKind} {e : PendingEvent} (hh : port.halt = none)
    (hr : port.stop = none) (hothers : ∀ j, j ≠ k → port.events.get j = none) (he : port.events.get k = some e) :
    firstWaiting port = some (.event k) := by
  have hpred : (fun j => (port.events.get j).isSome) = fun j => decide (j = k) := by
    funext j
    by_cases hj : j = k
    · simp [hj, he]
    · simp [hj, hothers j hj]
  have hfind : eventOrder.find? (fun j => (port.events.get j).isSome) = some k := by
    rw [hpred]
    cases k <;> rfl
  simp [firstWaiting, hh, hr, hfind]

/-! ### The rounds of a hand-on -/

theorem admitSource_length {src : ReportSource} (h : firstWaiting p.port = some src) :
    (admitSource p src).port.tx.length = p.port.tx.length + 1 := by
  unfold firstWaiting at h
  split at h
  · next hh =>
    cases h
    obtain ⟨x, hx⟩ := Option.isSome_iff_exists.1 hh
    simp [admitSource_halt hx, admittedPort]
  · split at h
    · next hr =>
      cases h
      obtain ⟨x, hx⟩ := Option.isSome_iff_exists.1 hr
      simp [admitSource_stop hx, admittedPort]
    · obtain ⟨k, hk, rfl⟩ := Option.map_eq_some_iff.1 h
      obtain ⟨x, hx⟩ := Option.isSome_iff_exists.1 (List.find?_some (p := fun j => (p.port.events.get j).isSome) hk)
      simp [admitSource_event hx, admittedPort]

theorem admitWaiting_of_cannot (n : Nat) (h : canAdmit p = false) : admitWaiting n p = p := by
  cases n with
  | zero => rfl
  | succ n => simp [admitWaiting, h]

theorem admitWaiting_of_none (n : Nat) (h : firstWaiting p.port = none) : admitWaiting n p = p := by
  cases n with
  | zero => rfl
  | succ n => simp [admitWaiting, h]

/-- Each admission takes a place, so that with as many rounds left as there are places down to one another round changes
nothing. -/
theorem admitWaiting_succ (n : Nat) : ∀ {p : Part}, 7 ≤ p.port.tx.length + n → admitWaiting (n + 1) p = admitWaiting n p := by
  induction n with
  | zero =>
    intro p hlen
    exact admitWaiting_of_cannot 1 (canAdmit_eq_false (.inl hlen))
  | succ n ih =>
    intro p hlen
    cases hc : canAdmit p with
    | false => rw [admitWaiting_of_cannot _ hc, admitWaiting_of_cannot _ hc]
    | true =>
      cases hs : firstWaiting p.port with
      | none => rw [admitWaiting_of_none _ hs, admitWaiting_of_none _ hs]
      | some src =>
        simp only [admitWaiting, hc, hs, if_true]
        exact ih (by rw [admitSource_length hs]; omega)

/-- R183: the report whose turn it is is admitted, and the hand-on goes on with what then waits. -/
theorem afterHandOn_admit {src : ReportSource} (hc : canAdmit p = true) (hs : firstWaiting p.port = some src) :
    afterHandOn p = afterHandOn (admitSource p src) := by
  have hround : afterHandOn p = admitWaiting 7 (admitSource p src) := by
    simp only [afterHandOn, admitWaiting, hc, hs, if_true]
  rw [hround]
  exact (admitWaiting_succ 7 (by omega)).symm

theorem afterHandOn_of_cannot (h : canAdmit p = false) : afterHandOn p = p := admitWaiting_of_cannot 8 h

theorem afterHandOn_of_none (h : firstWaiting p.port = none) : afterHandOn p = p := admitWaiting_of_none 8 h

/-- One report waits, and it is admitted alone. -/
theorem afterHandOn_single {src : ReportSource} (hc : canAdmit p = true) (hs : firstWaiting p.port = some src) {q : Part}
    (hq : admitSource p src = q) (hnone : firstWaiting q.port = none) : afterHandOn p = q := by
  rw [afterHandOn_admit hc hs, hq, afterHandOn_of_none hnone]

theorem holdEvent_eq {e : Event} {merged : Nat} (hnew : p.port.events.get e.kind = none → merged = 1)
    (hold : ∀ old, p.port.events.get e.kind = some old → merged = min 255 (old.merged + 1)) :
    holdEvent p e = { p with port := { p.port with
      events := p.port.events.put e.kind (some { event := e, merged := merged }) } } := by
  cases h : p.port.events.get e.kind with
  | none => simp only [holdEvent, h, hnew h]
  | some old => simp only [holdEvent, h, hold old h]

end

/-! ### A report handed on while none waits -/

section
variable {p : Part} (hlen : p.port.tx.length ≤ 6) (hx : p.port.resetPending = false) (hh : p.port.halt = none)
  (hr : p.port.stop = none) (he : ∀ k, p.port.events.get k = none)
include hlen hx hh hr he

theorem handHalt_alone (h : HaltReport) : handHalt p h =
    { p with port := admittedPort p.port (reportOf p 114 (writeInt 4 h.sleeper ++ writeInt 4 h.centre)) } := by
  have hnone : ∀ port : Port, port.halt = none → { port with halt := none } = port := fun port h => by rw [← h]
  refine afterHandOn_single (p := { p with port := { p.port with halt := some h } }) (canAdmit_of hlen hx)
    (firstWaiting_halt rfl) ((admitSource_halt rfl).trans ?_) (firstWaiting_none hh hr he)
  exact congrArg (fun port => { p with port := port }) (hnone (admittedPort p.port _) hh)

theorem handStop_alone (r : StopReport) : handStop p r =
    { p with port := admittedPort p.port (reportOf p 112 (stopFields r)) } := by
  have hnone : ∀ port : Port, port.stop = none → { port with stop := none } = port := fun port h => by rw [← h]
  refine afterHandOn_single (p := { p with port := { p.port with stop := some r } }) (canAdmit_of hlen hx)
    (firstWaiting_stop hh rfl) ((admitSource_stop rfl).trans ?_) (firstWaiting_none hh hr he)
  exact congrArg (fun port => { p with port := port }) (hnone (admittedPort p.port _) hr)

theorem handEvent_alone (e : Event) : handEvent p e =
    { p with port := admittedPort p.port (reportOf p 115 ([byte e.kind.code, 1] ++ eventDetails e)) } := by
  have hget : (p.port.events.put e.kind (some { event := e, merged := 1 })).get e.kind = some { event := e, merged := 1 } := by
    rw [PendingEvents.get_put, if_pos rfl]
  have hothers : ∀ j, j ≠ e.kind → (p.port.events.put e.kind (some { event := e, merged := 1 })).get j = none := fun j hj => by
    rw [PendingEvents.get_put, if_neg hj, he j]
  have hback : (p.port.events.put e.kind (some { event := e, merged := 1 })).put e.kind none = p.port.events := by
    rw [PendingEvents.put_put, PendingEvents.put_none_of_get (he e.kind)]
  show afterHandOn (holdEvent p e) = _
  rw [holdEvent_eq (fun _ => rfl) (fun old h => absurd h (by rw [he]; nofun))]
  refine afterHandOn_single (p := { p with port := { p.port with
    events := p.port.events.put e.kind (some { event := e, merged := 1 }) } }) (canAdmit_of hlen hx)
    (firstWaiting_onlyEvent hh hr hothers hget) ((admitSource_event hget).trans ?_) (firstWaiting_none hh hr he)
  simp only [hback]
  rfl

end

/-- Settles O10: the rounds of the arbiter, one at a time. -/
theorem reportsHandedOnAreAdmittedOrHeld : Obligations.ReportsHandedOnAreAdmittedOrHeld := by
  unfold Obligations.ReportsHandedOnAreAdmittedOrHeld
  intro p port message
  refine ⟨fun hlen hx hh hr he => ⟨?_, ?_, ?_⟩, fun hfull => ⟨fun h => ?_, fun r => ?_, fun e merged hnew hold => ?_⟩,
    fun _ => rfl, fun _ => rfl, fun e merged hnew hold => ?_, fun hfull => ?_, fun hh hr he => ?_,
    fun hlen hx => ⟨fun h hh => ?_, fun r hh hr => ?_, fun before k after e hh hr hsplit hbefore he => ?_⟩⟩
  · exact handHalt_alone hlen hx hh hr he
  · exact handStop_alone hlen hx hh hr he
  · exact handEvent_alone hlen hx hh hr he
  · exact afterHandOn_of_cannot (canAdmit_eq_false hfull)
  · exact afterHandOn_of_cannot (canAdmit_eq_false hfull)
  · show afterHandOn (holdEvent p e) = _
    rw [holdEvent_eq hnew hold]
    exact afterHandOn_of_cannot (canAdmit_eq_false hfull)
  · show afterHandOn (holdEvent p e) = _
    rw [holdEvent_eq hnew hold]
  · exact afterHandOn_of_cannot (canAdmit_eq_false hfull)
  · exact afterHandOn_of_none (firstWaiting_none hh hr he)
  · rw [afterHandOn_admit (canAdmit_of hlen hx) (firstWaiting_halt hh), admitSource_halt hh]
    rfl
  · rw [afterHandOn_admit (canAdmit_of hlen hx) (firstWaiting_stop hh hr), admitSource_stop hr]
    rfl
  · rw [afterHandOn_admit (canAdmit_of hlen hx) (firstWaiting_event hh hr hsplit hbefore he), admitSource_event he]
    rfl

/-! ### The commands of the arbiter -/

section
variable {s : State} (hp : s.part.powered = true)
include hp

theorem exec_halt_turn (hc : canAdmit s.part = true) (h : firstWaiting s.part.port = some .halt) :
    exec .halt s = .next (s.withPart (admitSource s.part .halt)) := by
  show execHalt s = _
  rw [execHalt, eventOf_powered hp]
  simp [admitInTurn, hc, h]

theorem exec_stopPoint_turn (hc : canAdmit s.part = true) (h : firstWaiting s.part.port = some .stopPoint) :
    exec .stopPoint s = .next (s.withPart (admitSource s.part .stopPoint)) := by
  show execStopPoint s = _
  rw [execStopPoint, eventOf_powered hp]
  simp [admitInTurn, hc, h]

theorem exec_event_turn {k : EventKind} (hc : canAdmit s.part = true) (h : firstWaiting s.part.port = some (.event k)) :
    exec .event s = .next (s.withPart (admitSource s.part (.event k))) := by
  show execEvent s = _
  rw [execEvent, eventOf_powered hp]
  simp [admitInTurn, hc, h]

theorem exec_sleeperDone_turn {r : SleeperRecord} (hc : canAdmit s.part = true) (h : firstWaiting s.part.port = none)
    (hoffered : offeredRecord s.part.queue = some r) :
    exec .sleeperDone s = .next (s.withPart (renewAndStart (acceptRecord s.part r))) := by
  show execSleeperDone s = _
  rw [execSleeperDone, eventOf_powered hp, hc, h, hoffered]

theorem exec_halt_other (h : firstWaiting s.part.port ≠ some .halt) : exec .halt s = .next s := by
  show execHalt s = _
  rw [execHalt, eventOf_powered hp]
  simp [admitInTurn, h]

theorem exec_stopPoint_other (h : firstWaiting s.part.port ≠ some .stopPoint) : exec .stopPoint s = .next s := by
  show execStopPoint s = _
  rw [execStopPoint, eventOf_powered hp]
  simp [admitInTurn, h]

theorem exec_event_other (h : ∀ k, firstWaiting s.part.port ≠ some (.event k)) : exec .event s = .next s := by
  show execEvent s = _
  rw [execEvent, eventOf_powered hp]
  split
  · next k hk => exact absurd hk (h k)
  · rfl

theorem exec_sleeperDone_other (h : firstWaiting s.part.port ≠ none) : exec .sleeperDone s = .next s := by
  show execSleeperDone s = _
  rw [execSleeperDone, eventOf_powered hp]
  split
  · next hnone _ => exact absurd hnone h
  · rfl

end

theorem offeredRecord_first {q : Queue} {before after : List SleeperRecord} {r : SleeperRecord}
    (hsplit : q.records = before ++ r :: after) (hbefore : ∀ x ∈ before, SleeperRecord.isUnreported x = false)
    (hr : SleeperRecord.isUnreported r = true) : offeredRecord q = some r :=
  List.find?_eq_some_iff_append.2 ⟨hr, before, after, hsplit, fun x hx => by simp [hbefore x hx]⟩

/-! ### The bytes of a report -/

/-- R192: the bits of byte 20, which parts of the record are present. -/
theorem partsPresent_eq (r : SleeperRecord) : partsPresent r =
    (if r.targets.isSome then 1 else 0) + 2 * (if (r.targets.bind (·.aux)).isSome then 1 else 0) +
      4 * (if r.result.isSome then 1 else 0) + 8 * (if (r.result.bind (·.residuals.aux)).isSome then 1 else 0) := by
  simp only [partsPresent, bitsOf]
  ring

theorem candidateFlags_eq (a b c d e f : Bool) : bitsOf [a, b, c, d, e, f] =
    (if a then 1 else 0) + 2 * (if b then 1 else 0) + 4 * (if c then 1 else 0) + 8 * (if d then 1 else 0) +
      16 * (if e then 1 else 0) + 32 * (if f then 1 else 0) := by
  simp only [bitsOf]
  ring

theorem recordFields_length (r : SleeperRecord) : (recordFields r).length = 59 := by simp [recordFields]

/-- R193: the bytes of a stop point's report. -/
theorem stopFields_eq (r : StopReport) : stopFields r = match r.stop with
    | .none => [0]
    | .tamp n => 1 :: writeInt 4 n ++ writeOptional 4 r.centre
    | .halt n => 2 :: writeInt 4 n ++ writeOptional 4 r.centre := by
  obtain ⟨stop, centre⟩ := r
  cases stop <;> rfl

/-- Settles O11: whose turn it is decides the four commands; the bytes are read off the layouts. -/
theorem reportsAreAdmittedInTheArbitersOrder : Obligations.ReportsAreAdmittedInTheArbitersOrder := by
  unfold Obligations.ReportsAreAdmittedInTheArbitersOrder
  refine ⟨fun s hp => ⟨fun hlen hx => ⟨fun h hh => ?_, fun r hh hr => ?_, fun before k after e hh hr hsplit hbefore he => ?_,
    fun hh hr he before r after hsplit hbefore hunreported => ?_⟩, fun hfull => ?_⟩, fun x => ?_, fun r => ?_, fun e => ?_⟩
  · have hturn := firstWaiting_halt hh
    refine ⟨(exec_halt_turn hp (canAdmit_of hlen hx) hturn).trans (by rw [admitSource_halt hh]; rfl),
      exec_stopPoint_other hp ?_, exec_event_other hp fun _ => ?_, exec_sleeperDone_other hp ?_⟩ <;> (rw [hturn]; nofun)
  · have hturn := firstWaiting_stop hh hr
    refine ⟨(exec_stopPoint_turn hp (canAdmit_of hlen hx) hturn).trans (by rw [admitSource_stop hr]; rfl),
      exec_halt_other hp ?_, exec_event_other hp fun _ => ?_, exec_sleeperDone_other hp ?_⟩ <;> (rw [hturn]; nofun)
  · have hturn := firstWaiting_event hh hr hsplit hbefore he
    refine ⟨(exec_event_turn hp (canAdmit_of hlen hx) hturn).trans (by rw [admitSource_event he]; rfl),
      exec_halt_other hp ?_, exec_stopPoint_other hp ?_, exec_sleeperDone_other hp ?_⟩ <;> (rw [hturn]; nofun)
  · have hturn := firstWaiting_none hh hr he
    refine ⟨exec_sleeperDone_turn hp (canAdmit_of hlen hx) hturn (offeredRecord_first hsplit hbefore hunreported),
      exec_halt_other hp ?_, exec_stopPoint_other hp ?_, exec_event_other hp fun _ => ?_⟩ <;> (rw [hturn]; nofun)
  · exact admissions_idle hp (canAdmit_eq_false hfull)
  · refine ⟨recordFields_length x, ?_⟩
    simp only [recordFields, partsPresent_eq, candidateFlags_eq]
    obtain ⟨_, _, _, _, targets, result, _, _⟩ := x
    cases targets <;> cases result <;> rfl
  · rw [stopFields_eq]
    obtain ⟨stop, centre⟩ := r
    cases stop <;> cases centre <;> rfl
  · cases e with
    | planState ctx state dead slot => cases slot <;> rfl
    | lockout causes added sleeper => cases sleeper <;> rfl
    | chainageLimit high chainage => cases high <;> rfl
    | storeDone ok => cases ok <;> rfl
    | started | scanOverflow => rfl

end Sys2Proof.Machine
end

section
/-! PROOF. Rounding, fields that read back, code tables and flag sets, and the size of a travel step (00_scope.md, R3, R5, R175,
R191 to R193). -/

namespace Sys2Proof.Machine
open Sys2Proof Sys2Proof.Safety

/-! ### Rounding -/

/-- Rounding works on the values without their signs: the product goes back to the dividend's side, and what is left over is
at most half a divisor, at a tie below the product. -/
theorem roundDiv_mul (n : Int) {d : Int} (hd : d ≠ 0) : ∃ y : Nat, (roundDiv n d * d = if n < 0 then -(y : Int) else y) ∧
    2 * y ≤ 2 * n.natAbs + d.natAbs ∧ 2 * n.natAbs < 2 * y + d.natAbs := by
  have hpos : 0 < 2 * d.natAbs := by omega
  refine ⟨(2 * n.natAbs + d.natAbs) / (2 * d.natAbs) * d.natAbs, ?_, ?_, ?_⟩
  · rw [roundDiv, Nat.cast_mul]
    generalize (2 * n.natAbs + d.natAbs) / (2 * d.natAbs) = q
    rcases lt_or_ge n 0 with hn | hn <;> rcases lt_or_ge d 0 with hneg | hneg
    · rw [show (d.natAbs : Int) = -d by omega]
      simp [hn, hneg]
    · rw [show (d.natAbs : Int) = d by omega]
      simp [hn, not_lt.2 hneg]
    · rw [show (d.natAbs : Int) = -d by omega]
      simp [not_lt.2 hn, hneg]
    · rw [show (d.natAbs : Int) = d by omega]
      simp [not_lt.2 hn, not_lt.2 hneg]
  · have hle := Nat.div_mul_le_self (2 * n.natAbs + d.natAbs) (2 * d.natAbs)
    linarith
  · have hlt := Nat.lt_div_mul_add (a := 2 * n.natAbs + d.natAbs) hpos
    linarith

theorem roundDiv_neg (n : Int) {d : Int} (hd : 0 < d) : roundDiv (-n) d = -roundDiv n d := by
  rcases lt_trichotomy n 0 with hn | rfl | hn
  · rw [roundDiv_of_nonneg (by omega) hd, roundDiv_of_neg hn hd, neg_neg]
  · have hzero : (2 * 0 + d) / (2 * d) = 0 := Int.ediv_eq_zero_of_lt (by omega) (by omega)
    rw [neg_zero, roundDiv_of_nonneg le_rfl hd, hzero, neg_zero]
  · rw [roundDiv_of_neg (by omega) hd, roundDiv_of_nonneg hn.le hd, neg_neg]

/-! ### Fields that read back (R175) -/

/-- R175: the bytes of a field hold the value modulo the number of values they have. -/
theorem readNat_writeInt (n : Nat) : ∀ x : Int, (readNat (writeInt n x) : Int) = x % 256 ^ n := by
  induction n with
  | zero => intro x; simp [writeInt, readNat]
  | succ n ih =>
    intro x
    have hlow : ((BitVec.ofInt 8 x).toNat : Int) = x % 256 := by
      rw [BitVec.toNat_ofInt]
      omega
    have hpow : (0 : Int) < 256 ^ n := by positivity
    have hx := Int.emod_add_mul_ediv x 256
    have hq := Int.emod_add_mul_ediv (x / 256) (256 ^ n)
    have hrem := Int.emod_nonneg (x / 256) hpow.ne'
    have hrem' := Int.emod_lt_of_pos (x / 256) hpow
    have hbyte := Int.emod_nonneg x (show (256 : Int) ≠ 0 by norm_num)
    have hbyte' := Int.emod_lt_of_pos x (show (0 : Int) < 256 by norm_num)
    rw [writeInt, readNat, Nat.cast_add, Nat.cast_mul, ih, hlow]
    refine ((Int.ediv_emod_unique (q := x / 256 / 256 ^ n) (by positivity)).2 ⟨?_, ?_, ?_⟩).2.symm
    · rw [pow_succ]
      linear_combination hx + 256 * hq
    · push_cast
      linarith
    · rw [pow_succ]
      push_cast
      linarith

section
variable {n : Nat} {x : Int}

theorem pow_byte (hn : 1 ≤ n) : (256 : Int) ^ n = 2 * 2 ^ (8 * n - 1) := by
  rw [← pow_succ', show (256 : Int) = 2 ^ 8 by norm_num, ← pow_mul]
  congr 1
  omega

theorem readNat_writeInt_of_nonneg (hn : 1 ≤ n) (h0 : 0 ≤ x) (hx : x < 2 ^ (8 * n - 1)) :
    (readNat (writeInt n x) : Int) = x := by
  rw [readNat_writeInt, pow_byte hn]
  exact Int.emod_eq_of_lt h0 (by linarith)

theorem readNat_writeInt_of_neg (hn : 1 ≤ n) (h0 : x < 0) (hx : -(2 ^ (8 * n - 1)) ≤ x) :
    (readNat (writeInt n x) : Int) = x + 256 ^ n := by
  rw [readNat_writeInt, pow_byte hn, ← Int.add_emod_right]
  exact Int.emod_eq_of_lt (by linarith) (by linarith)

/-- R175: a field reads back when its value fits it in two's complement. -/
theorem readInt_writeInt (hn : 1 ≤ n) (hlow : -(2 ^ (8 * n - 1)) ≤ x) (hhigh : x < 2 ^ (8 * n - 1)) :
    readInt (writeInt n x) = x := by
  have hpow := pow_byte hn
  simp only [readInt, writeInt_length]
  have hhalf : 2 * readNat (writeInt n x) < 256 ^ n ↔ 2 * (readNat (writeInt n x) : Int) < 256 ^ n := by norm_cast
  simp only [hhalf]
  rcases lt_or_ge x 0 with h0 | h0
  · rw [readNat_writeInt_of_neg hn h0 hlow, if_neg (by linarith)]
    ring
  · rw [readNat_writeInt_of_nonneg hn h0 hhigh, if_pos (by linarith)]

end

/-! ### Codes and flag sets (R191 to R193) -/

theorem directionOfCode_iff (n : Nat) (d : Direction) : directionOfCode n = some d ↔ n = d.code := by
  rcases n with _ | _ | n <;> cases d <;> simp [directionOfCode, Direction.code]

theorem contextOfCode_iff (n : Nat) (c : ContextId) : contextOfCode n = some c ↔ n = c.code := by
  rcases n with _ | _ | n <;> cases c <;> simp [contextOfCode, ContextId.code]

theorem modeOfCode_iff (n : Nat) (m : Mode) : modeOfCode n = some m ↔ n = m.code := by
  rcases n with _ | _ | n <;> cases m <;> simp [modeOfCode, Mode.code]

theorem actionOfCode_iff (n : Nat) (a : PatternAction) : actionOfCode n = some a ↔ n = a.code := by
  rcases n with _ | _ | _ | _ | n <;> cases a <;> simp [actionOfCode, PatternAction.code]

theorem railOfCode_iff (n : Nat) (r : ReferenceRail) : railOfCode n = some r ↔ n = r.code := by
  rcases n with _ | _ | _ | n <;> cases r <;> simp [railOfCode, ReferenceRail.code]

theorem windowModeOfCode_write (n : Nat) : windowModeOfCode n = some .write ↔ n = 0 := by
  rcases n with _ | _ | n <;> simp [windowModeOfCode]

theorem windowModeOfCode_edit (n : Nat) : windowModeOfCode n = some .edit ↔ n = 1 := by
  rcases n with _ | _ | n <;> simp [windowModeOfCode]

/-- R192, R193: the bits of the flag sets, each flag at its weight. -/
theorem flagSets_bits :
    let b : Bool → Nat := fun flag => if flag then 1 else 0
    (∀ f : TargetFlags, f.bits = b f.noPlanH + 2 * b f.noPlanV + 4 * b f.heldH + 8 * b f.heldV + 16 * b f.uncorrectedH +
      32 * b f.uncorrectedV + 64 * b f.stepLimit + 128 * b f.lineLimit + 256 * b f.lnFault + 512 * b f.refSwapped +
      1024 * b f.levelFault + 2048 * b f.xlFault + 4096 * b f.lowSpotL + 8192 * b f.lowSpotR + 16384 * b f.liftLimitL +
      32768 * b f.liftLimitR + 65536 * b f.lowSpotAux + 131072 * b f.liftLimitAux) ∧
    (∀ f : UnitFlags, f.bits = b f.folded + 2 * b f.foldFault + 4 * b f.penShort + 8 * b f.squeezeTimed) ∧
    (∀ x : ArmSet, ArmSet.bits x = b x.loF + 2 * b x.loA + 4 * b x.liF + 8 * b x.liA + 16 * b x.riF + 32 * b x.riA +
      64 * b x.roF + 128 * b x.roA) ∧
    (∀ x : SlotSet, SlotSet.bits x = b x.s1 + 2 * b x.s2 + 4 * b x.s3 + 8 * b x.s4 + 16 * b x.s5 + 32 * b x.s6) ∧
    (∀ x : ScanLines, ScanLines.bits x = b x.se + 2 * b x.fl + 4 * b x.fr + 8 * b x.cm) ∧
    (∀ c : CauseSet, c.bits = b c.travelFault + 2 * b c.estop + 4 * b c.unitStuck + 8 * b c.resetDown) := by
  intro b
  refine ⟨fun f => ?_, fun f => ?_, fun x => ?_, fun x => ?_, fun x => ?_, fun c => ?_⟩
  · simp only [TargetFlags.bits, bitsOf, b]
    ring
  · simp only [UnitFlags.bits, bitsOf, b]
    ring
  · simp only [ArmSet.bits, allArms, List.map, PerArm.get, bitsOf, b]
    ring
  · simp only [SlotSet.bits, PerSlot.toList, bitsOf, b]
    ring
  · simp only [ScanLines.bits, bitsOf, b]
    ring
  · simp only [CauseSet.bits, bitsOf, b]
    ring

/-- Settles O12: the arithmetic by the two signs, the code tables by evaluation. -/
theorem divisionRoundsAndFieldsReadBack : Obligations.DivisionRoundsAndFieldsReadBack := by
  unfold Obligations.DivisionRoundsAndFieldsReadBack
  refine ⟨fun n d hd => ?_, fun n x hn hlow hhigh => ?_, by decide, fun n => ?_, by decide, flagSets_bits⟩
  · obtain ⟨y, hmul, hle, hlt⟩ := roundDiv_mul n hd
    rw [hmul]
    split <;> omega
  · exact ⟨readInt_writeInt hn hlow hhigh, writeInt_length n x, fun h0 => readNat_writeInt_of_nonneg hn h0 hhigh⟩
  · exact ⟨directionOfCode_iff n, contextOfCode_iff n, modeOfCode_iff n, actionOfCode_iff n, railOfCode_iff n,
      windowModeOfCode_write n, windowModeOfCode_edit n⟩

/-! ### Chainage (R3, R5) -/

/-- R3: a pulse makes the rounded product of count and pitch 1 to 5 greater. -/
theorem roundDiv_step_of_nonneg {n pitch : Int} (hn : 0 ≤ n) (hlow : 1000 ≤ pitch) (hhigh : pitch ≤ 5000) :
    1 ≤ roundDiv ((n + 1) * pitch) 1000 - roundDiv (n * pitch) 1000 ∧
    roundDiv ((n + 1) * pitch) 1000 - roundDiv (n * pitch) 1000 ≤ 5 := by
  have hm : 0 ≤ n * pitch := Int.mul_nonneg hn (by omega)
  rw [add_mul, one_mul, roundDiv_of_nonneg hm (by norm_num), roundDiv_of_nonneg (by omega) (by norm_num)]
  generalize n * pitch = m
  omega

theorem roundDiv_step (n : Int) {pitch : Int} (hlow : 1000 ≤ pitch) (hhigh : pitch ≤ 5000) :
    1 ≤ roundDiv ((n + 1) * pitch) 1000 - roundDiv (n * pitch) 1000 ∧
    roundDiv ((n + 1) * pitch) 1000 - roundDiv (n * pitch) 1000 ≤ 5 := by
  rcases le_or_gt 0 n with hn | hn
  · exact roundDiv_step_of_nonneg hn hlow hhigh
  · have hback := roundDiv_step_of_nonneg (n := -n - 1) (by omega) hlow hhigh
    rw [show (-n - 1 + 1) * pitch = -(n * pitch) by ring, show (-n - 1) * pitch = -((n + 1) * pitch) by ring,
      roundDiv_neg _ (by norm_num), roundDiv_neg _ (by norm_num)] at hback
    omega

theorem aheadBy_pointAhead (p : Part) (offset : Int) :
    aheadBy p.travel.direction (pointAhead p offset) (chainageC p) = offset := by
  rw [aheadBy, pointAhead, add_sub_cancel_left, ← mul_assoc, dirSign_mul_self, one_mul]

/-- Settles O13: the step by the sign of the count, the points by the direction sign's square. -/
theorem travelStepsMoveOneToFiveMillimetres : Obligations.TravelStepsMoveOneToFiveMillimetres := by
  unfold Obligations.TravelStepsMoveOneToFiveMillimetres
  refine ⟨fun t pitch n hlow hhigh => ?_, fun p => ⟨fun h => chainageC_none h, fun h => ?_, aheadBy_pointAhead p _,
    aheadBy_pointAhead p _, aheadBy_pointAhead p _⟩⟩
  · intro x y
    have hstep := roundDiv_step n hlow hhigh
    have hahead : aheadBy t.direction y x = roundDiv ((n + 1) * pitch) 1000 - roundDiv (n * pitch) 1000 := by
      simp only [aheadBy, y, x, chainageOf, add_sub_add_left_eq_sub]
      rw [← mul_sub, ← mul_assoc, dirSign_mul_self, one_mul]
    refine ⟨by omega, by omega, chainageOf_zero t pitch, ?_⟩
    simp only [x, chainageOf, neg_mul, roundDiv_neg _ (show (0 : Int) < 1000 by norm_num)]
    ring
  · rw [chainageC_set h, chainageOf]
    cases p.travel.direction <;> rfl

end Sys2Proof.Machine
end

section
/-! PROOF. What an odometer pulse does to the travel counter, and how the blocks take a travel step (R1 to R7, R21, R44, R45, R75,
R85). -/

namespace Sys2Proof.Machine
open Sys2Proof Sys2Proof.Safety

/-! ### The record in position while the machine moves (R45, R46) -/

/-- R46: while the machine moves, a renewal hands on no IN_POSITION. -/
theorem renewAndStart_moving {p : Part} (h : p.queue.motion = .moving) : renewAndStart p = (renewInPosition p).1 := by
  have hnone : (renewInPosition p).2 = false := by simp [renewInPosition, h]
  unfold renewAndStart
  split
  · next heq => rw [heq] at hnone; cases hnone
  · next heq => rw [heq]

theorem inChainageRange_iff (x : Int) : inChainageRange x = true ↔ -99999999 ≤ x ∧ x ≤ 99999999 := by
  rw [inChainageRange, decide_eq_true_eq]
  rfl

/-! ### A pulse once the motion is MOVING (R2, R4, R6) -/

section
variable {p : Part} (lines : ScanLines) (dir : Move)

theorem movePulse_none (h : p.travel.originState = .none) : movePulse lines dir p = p := by unfold movePulse; rw [h]

theorem movePulse_step (h : p.travel.originState = .set)
    (hlow : -99999999 ≤ chainageOf p.travel p.store.working.pitch (pulsesAfter p dir))
    (hhigh : chainageOf p.travel p.store.working.pitch (pulsesAfter p dir) ≤ 99999999) :
    movePulse lines dir p = blocksTakeStep lines dir (stepPulses p (pulsesAfter p dir)) := by
  unfold movePulse
  rw [h]
  exact if_pos ((inChainageRange_iff _).2 ⟨hlow, hhigh⟩)

theorem movePulse_high (h : p.travel.originState = .set)
    (hx : 99999999 < chainageOf p.travel p.store.working.pitch (pulsesAfter p dir)) :
    movePulse lines dir p = refusePulse p true := by
  have hrange : ¬ inChainageRange (chainageOf p.travel p.store.working.pitch (pulsesAfter p dir)) = true := by
    rw [inChainageRange_iff]
    omega
  unfold movePulse
  rw [h]
  refine (if_neg hrange).trans (congrArg (refusePulse p) (decide_eq_true ?_))
  rw [maxChainage]
  exact hx

theorem movePulse_low (h : p.travel.originState = .set)
    (hx : chainageOf p.travel p.store.working.pitch (pulsesAfter p dir) < -99999999) :
    movePulse lines dir p = refusePulse p false := by
  have hrange : ¬ inChainageRange (chainageOf p.travel p.store.working.pitch (pulsesAfter p dir)) = true := by
    rw [inChainageRange_iff]
    omega
  unfold movePulse
  rw [h]
  refine (if_neg hrange).trans (congrArg (refusePulse p) (decide_eq_false ?_))
  rw [maxChainage]
  omega

theorem refusePulse_true : refusePulse p true = if p.travel.highLimit then p
    else handEvent { p with travel := { p.travel with highLimit := true } } (.chainageLimit true (chainageC p)) := rfl

theorem refusePulse_false : refusePulse p false = if p.travel.lowLimit then p
    else handEvent { p with travel := { p.travel with lowLimit := true } } (.chainageLimit false (chainageC p)) := rfl

/-- R45: a retreat renews the record in position. -/
theorem blocksTakeStep_backward (h : p.queue.motion = .moving) :
    blocksTakeStep lines .backward p =
      { p with queue := { p.queue with inPosition := (recordInPosition p).map (·.number) } } :=
  renewAndStart_moving h

/-- R4, log entry 12: the scanner, the queue and the plan contexts take an advance one after the other. -/
theorem blocksTakeStep_forward (h : p.queue.motion = .moving) :
    blocksTakeStep lines .forward p =
      contextAdvance .v (contextAdvance .h (renewInPosition (passRecords (scannerAdvance lines p))).1) := by
  have hmoving : (passRecords (scannerAdvance lines p)).queue.motion = .moving :=
    (passRecords_steady _).queueMotion.trans ((scannerAdvance_steady lines p).queueMotion.trans h)
  show contextAdvance .v (contextAdvance .h (renewAndStart _)) = _
  rw [renewAndStart_moving hmoving]

end

/-! ### A pulse as the motion state finds it (R7, R163) -/

section
variable {s : State} {l1 l2 : Bool} {dir : Move} (lines : ScanLines)

/-- R1: a valid transition is a pulse. -/
theorem exec_pulse (hp : s.part.powered = true) (hpulse : pulseOf s.part.lines.odo1 s.part.lines.odo2 l1 l2 = some dir) :
    exec (.odometerPulse l1 l2 lines) s = .next (s.withPart (takePulse lines dir (observeOdometer l1 l2 s.part))) := by
  show execOdometerPulse l1 l2 lines s = _
  simp only [execOdometerPulse, hp, hpulse, if_true]

theorem exec_noPulse (hp : s.part.powered = true) (hpulse : pulseOf s.part.lines.odo1 s.part.lines.odo2 l1 l2 = none) :
    exec (.odometerPulse l1 l2 lines) s = .next (s.withPart (observeOdometer l1 l2 s.part)) := by
  show execOdometerPulse l1 l2 lines s = _
  simp only [execOdometerPulse, hp, hpulse, if_true]

/-- R7, R163: at STANDSTILL the controller takes the pulse before the travel step. -/
theorem takePulse_standstill {p : Part} (h : p.travel.motion = .standstill) :
    takePulse lines dir (observeOdometer l1 l2 p) = movePulse lines dir (cycleMoving (enteredMoving p l1 l2 dir)) := by
  have henter : enterMoving ((observeOdometer l1 l2 p).withTravel { p.travel with
      lastMove := dir, standstillTimer := some p.store.working.standstillInterval }) =
      cycleMoving (enteredMoving p l1 l2 dir) := by
    unfold enterMoving
    split
    · next hm => exact absurd (hm.symm.trans h) (by decide)
    · rfl
  exact congrArg (movePulse lines dir) henter

theorem takePulse_moving {p : Part} (h : p.travel.motion = .moving) (hlegal : TravelLegal p) :
    takePulse lines dir (observeOdometer l1 l2 p) = movePulse lines dir (enteredMoving p l1 l2 dir) := by
  obtain ⟨-, -, -, hqueue, hcycle⟩ := hlegal
  rw [h] at hqueue hcycle
  have htravel : ∀ timer, ({ p.travel with lastMove := dir, motion := .moving, standstillTimer := timer } : Travel) =
      { p.travel with lastMove := dir, standstillTimer := timer } := fun timer => by rw [← h]
  have hqueue : ({ p.queue with motion := .moving } : Queue) = p.queue := by rw [← hqueue]
  have hcycle : ({ p.cycle with motion := .moving } : Cycle) = p.cycle := by rw [← hcycle]
  have hentered : (observeOdometer l1 l2 p).withTravel { p.travel with
      lastMove := dir, standstillTimer := some p.store.working.standstillInterval } = enteredMoving p l1 l2 dir := by
    rw [enteredMoving, htravel, hqueue, hcycle]
    rfl
  have henter : enterMoving (enteredMoving p l1 l2 dir) = enteredMoving p l1 l2 dir := rfl
  unfold takePulse
  exact congrArg (movePulse lines dir) ((congrArg enterMoving hentered).trans henter)

/-- R163: in IDLE, and with every unit clear in RELEASING and LOCKOUT, a pulse stops nothing. -/
theorem cycleMoving_stopsNothing {p : Part}
    (h : p.cycle.phase = .idle ∨ ((p.cycle.phase = .releasing ∨ p.cycle.phase = .lockout) ∧ ∀ u, unitDepth p u ≤ 200)) :
    cycleMoving p = p := by
  unfold cycleMoving
  rcases h with h | ⟨h | h, hclear⟩
  · rw [h]
  · rw [h]
    exact if_pos ((allClear_iff p).2 hclear)
  · rw [h]
    exact if_pos ((allClear_iff p).2 hclear)

end

/-- Settles O15: the branches of a pulse, and the motion states in which it stops no cycle. -/
theorem theBlocksTakeATravelStep : Obligations.TheBlocksTakeATravelStep := by
  unfold Obligations.TheBlocksTakeATravelStep
  refine ⟨fun p lines dir hmotion => ?_, fun s l1 l2 lines dir hp hlegal hpulse hstops => ?_⟩
  · refine ⟨fun h => movePulse_none lines dir h, fun h hlow hhigh => ⟨?_, ?_⟩, fun h hx => ?_, fun h hx => ?_⟩
    · rintro rfl
      exact (movePulse_step lines .backward h hlow hhigh).trans (blocksTakeStep_backward lines hmotion)
    · rintro rfl
      exact (movePulse_step lines .forward h hlow hhigh).trans (blocksTakeStep_forward lines hmotion)
    · exact (movePulse_high lines dir h hx).trans refusePulse_true
    · exact (movePulse_low lines dir h hx).trans refusePulse_false
  · rw [exec_pulse lines hp hpulse]
    cases hm : s.part.travel.motion with
    | moving => rw [takePulse_moving lines hm hlegal]
    | standstill =>
      have hstops : s.part.cycle.phase = .idle ∨
          ((s.part.cycle.phase = .releasing ∨ s.part.cycle.phase = .lockout) ∧ ∀ u, unitDepth s.part u ≤ 200) :=
        hstops.resolve_left (by rw [hm]; decide)
      rw [takePulse_standstill lines hm, cycleMoving_stopsNothing (p := enteredMoving s.part l1 l2 dir) hstops]

/-! ### What no pulse reaches (R1, R2, R7) -/

/-- What no block's step reaches, but for the travel counter. -/
def Part.offTravel (p : Part) : Bool × PartPhase × Lines × PerChannel (List Int) × Corrections × Int × Store :=
  (p.powered, p.phase, p.lines, p.history, p.corr, p.trim, p.store)

section
variable {p q : Part}

theorem offTravel_of_ground (h : q.ground = p.ground) : q.offTravel = p.offTravel := by
  simp only [Part.ground, Ground.mk.injEq] at h
  simp [Part.offTravel, h]

theorem offTravel_of_offPlan (h : q.offPlan = p.offPlan) : q.offTravel = p.offTravel := by
  simp only [Part.offPlan, Prod.mk.injEq] at h
  simp [Part.offTravel, h]

theorem offTravel_of_offScanner (h : q.offScanner = p.offScanner) : q.offTravel = p.offTravel := by
  simp only [Part.offScanner, Prod.mk.injEq] at h
  simp [Part.offTravel, h]

theorem blocksTakeStep_offTravel (lines : ScanLines) (dir : Move) (p : Part) :
    (blocksTakeStep lines dir p).offTravel = p.offTravel := by
  cases dir with
  | backward => exact offTravel_of_ground (renewAndStart_ground p)
  | forward =>
    exact (offTravel_of_offPlan (contextAdvance_offPlan _ .v)).trans ((offTravel_of_offPlan (contextAdvance_offPlan _ .h)).trans
      ((offTravel_of_ground (renewAndStart_ground _)).trans
        ((offTravel_of_ground (ground_of_offQueue (passRecords_offQueue _))).trans
          (offTravel_of_offScanner (scannerAdvance_offScanner p lines)))))

theorem refusePulse_offTravel (p : Part) (high : Bool) : (refusePulse p high).offTravel = p.offTravel := by
  rcases refusePulse_cases p high with h | ⟨highLimit, lowLimit, e, h⟩
  · rw [h]
  · rw [h]
    exact (offTravel_of_ground (handEvent_ground _ _)).trans rfl

theorem movePulse_offTravel (lines : ScanLines) (dir : Move) (p : Part) : (movePulse lines dir p).offTravel = p.offTravel := by
  unfold movePulse
  split
  · rfl
  · simp only
    split
    · exact (blocksTakeStep_offTravel lines dir _).trans rfl
    · exact refusePulse_offTravel p _

/-- R6: a pulse refused at the high end sets that end's flag. -/
theorem refusePulse_high_travel (p : Part) : (refusePulse p true).travel = { p.travel with highLimit := true } := by
  rw [refusePulse_true]
  split
  · next h => rw [← h]
  · exact congrArg Ground.travel (handEvent_ground _ _)

/-- R6: a pulse refused at the low end sets that end's flag. -/
theorem refusePulse_low_travel (p : Part) : (refusePulse p false).travel = { p.travel with lowLimit := true } := by
  rw [refusePulse_false]
  split
  · next h => rw [← h]
  · exact congrArg Ground.travel (handEvent_ground _ _)

end

/-- The part as the travel step of a pulse finds it, after the controller has taken the pulse: the lines as observed, the travel
counter in MOVING, and all else that no block's step reaches as it was. -/
theorem takePulse_finds (lines : ScanLines) (dir : Move) (l1 l2 : Bool) (p : Part) :
    ∃ q, takePulse lines dir (observeOdometer l1 l2 p) = movePulse lines dir q ∧
      q.offTravel = (observeOdometer l1 l2 p).offTravel ∧
      q.travel = { p.travel with
        lastMove := dir, motion := .moving, standstillTimer := some p.store.working.standstillInterval } := by
  cases hm : p.travel.motion with
  | standstill =>
    have hground := cycleMoving_ground (enteredMoving p l1 l2 dir)
    exact ⟨_, takePulse_standstill lines hm, (offTravel_of_ground hground).trans rfl, congrArg Ground.travel hground⟩
  | moving =>
    have hstays : enterMoving ((observeOdometer l1 l2 p).withTravel { p.travel with
        lastMove := dir, standstillTimer := some p.store.working.standstillInterval }) =
        (observeOdometer l1 l2 p).withTravel { p.travel with
          lastMove := dir, standstillTimer := some p.store.working.standstillInterval } := by
      unfold enterMoving
      split
      · rfl
      · next hs => exact absurd (hs.symm.trans hm) (by decide)
    refine ⟨_, congrArg (movePulse lines dir) hstays, rfl, ?_⟩
    rw [← hm]
    rfl

/-- Settles O14: the transitions by evaluation, and the travel counter by the branches of a pulse. -/
theorem odometerPulsesMoveTheCounter : Obligations.OdometerPulsesMoveTheCounter := by
  unfold Obligations.OdometerPulsesMoveTheCounter
  refine ⟨by decide, fun s l1 l2 lines hp => ⟨fun hnone => exec_noPulse lines hp hnone, fun dir hpulse => ?_⟩⟩
  intro n x moved
  obtain ⟨q, htake, hfound, htravel⟩ := takePulse_finds lines dir l1 l2 s.part
  have hkept := (movePulse_offTravel lines dir q).trans hfound
  have hstore : q.store = s.part.store := congrArg (fun x => x.2.2.2.2.2.2) hfound
  simp only [Part.offTravel, Prod.mk.injEq, observeOdometer] at hkept
  obtain ⟨hpowered, hphase, hlines, hhistory, hcorr, htrim, hkeptStore⟩ := hkept
  have hn : pulsesAfter q dir = n := by
    have hpulses : q.travel.pulses = s.part.travel.pulses := by rw [htravel]
    cases dir <;> simp only [pulsesAfter, hpulses, n]
  have hx : chainageOf q.travel q.store.working.pitch (pulsesAfter q dir) = x := by rw [hn, htravel, hstore]; rfl
  have horigin : q.travel.originState = s.part.travel.originState := by rw [htravel]
  have hc : chainageC q = chainageC s.part := by
    unfold chainageC
    rw [htravel, hstore]
    rfl
  refine ⟨_, exec_pulse lines hp hpulse, rfl, ?_⟩
  rw [htake]
  refine ⟨hlines, hpowered.trans hp, hphase, hhistory, hcorr, htrim, hkeptStore, fun hnone => ?_, fun hset hlow hhigh => ?_,
    fun hset hhigh => ?_, fun hset hlow => ?_⟩
  · exact (congrArg Part.travel (movePulse_none lines dir (horigin.trans hnone))).trans htravel
  · rw [State.withPart_part, movePulse_step lines dir (horigin.trans hset) (by rwa [hx]) (by rwa [hx])]
    refine (blocksTakeStep_steady lines dir _).travel.trans ?_
    simp only [stepPulses, Part.withTravel, hx, hc]
    rw [hn, htravel]
  · rw [State.withPart_part, movePulse_high lines dir (horigin.trans hset) (by rwa [hx]), refusePulse_high_travel, htravel]
  · rw [State.withPart_part, movePulse_low lines dir (horigin.trans hset) (by rwa [hx]), refusePulse_low_travel, htravel]

end Sys2Proof.Machine
end

section
/-! PROOF. ORIGIN SET, SKIP MARK and HALT CLEAR (R8, R9, R48, R51). -/

namespace Sys2Proof.Machine
open Sys2Proof Sys2Proof.Safety

/-! ### A hand-on turns on the port and the part node alone -/

section
variable {p q : Part}

theorem firstWaiting_congr (h : p.port = q.port) : firstWaiting p.port = firstWaiting q.port := by rw [h]

theorem canAdmit_congr (h : p.port = q.port) : canAdmit p = canAdmit q := by rw [canAdmit, canAdmit, h]

theorem admitSource_congr (src : ReportSource) (hport : p.port = q.port)
    (hnode : p.store.working.partNode = q.store.working.partNode) :
    (admitSource p src).port = (admitSource q src).port ∧
    (admitSource p src).store.working.partNode = (admitSource q src).store.working.partNode := by
  constructor
  · cases src <;> simp only [admitSource, admitHalt, admitStop, admitEvent, hport] <;> split <;>
      simp only [pushReport, hport, hnode]
  · have hp := congrArg Ground.store (ground_of_offPort (admitSource_offPort p src))
    have hq := congrArg Ground.store (ground_of_offPort (admitSource_offPort q src))
    exact (congrArg (fun st : Store => st.working.partNode) hp).trans
      (hnode.trans (congrArg (fun st : Store => st.working.partNode) hq.symm))

theorem admitWaiting_congr (n : Nat) : ∀ {p q : Part}, p.port = q.port →
    p.store.working.partNode = q.store.working.partNode → (admitWaiting n p).port = (admitWaiting n q).port := by
  induction n with
  | zero => exact fun hport _ => hport
  | succ n ih =>
    intro p q hport hnode
    unfold admitWaiting
    rw [canAdmit_congr hport, firstWaiting_congr hport]
    split
    · split
      · exact hport
      · next src _ => exact ih (admitSource_congr src hport hnode).1 (admitSource_congr src hport hnode).2
    · exact hport

theorem part_eq_of_offPort (h : q.offPort = p.offPort) : q = { p with port := q.port } := by
  obtain ⟨_, _, _, _, _, _, _, _, _, _, _, _, _, _, _, _⟩ := p
  obtain ⟨_, _, _, _, _, _, _, _, _, _, _, _, _, _, _, _⟩ := q
  simp only [Part.offPort, Part.ground, Prod.mk.injEq, Ground.mk.injEq] at h
  obtain ⟨⟨rfl, rfl, rfl, rfl, rfl, rfl, rfl, rfl, rfl, rfl, rfl, rfl⟩, rfl, rfl, rfl⟩ := h
  rfl

/-- A hand-on changes the port alone, and to the same in every part that holds the port and the part node. -/
theorem afterHandOn_congr (hport : p.port = q.port) (hnode : p.store.working.partNode = q.store.working.partNode) :
    afterHandOn p = { p with port := (afterHandOn q).port } := by
  rw [← show (afterHandOn p).port = (afterHandOn q).port from admitWaiting_congr 8 hport hnode]
  exact part_eq_of_offPort (afterHandOn_offPort p)

/-- A hand-on and a change of the queue pass one another. -/
theorem handStop_withQueue (p : Part) (r : StopReport) (u : Queue) :
    handStop { p with queue := u } r = { handStop p r with queue := u } := by
  have hp : handStop p r = { p with port := (handStop p r).port } := part_eq_of_offPort (handStop_offPort p r)
  have hu : handStop { p with queue := u } r = { p with queue := u, port := (handStop p r).port } :=
    afterHandOn_congr (p := { p with queue := u, port := { p.port with stop := some r } })
      (q := { p with port := { p.port with stop := some r } }) rfl rfl
  rw [hu, hp]

end

/-! ### ORIGIN SET (R8, R9) -/

section
variable {p : Part}

theorem stopPointOf_empty (hrecords : p.queue.records = []) (hlatch : p.queue.latch = none) : stopPointOf p = .none := by
  simp [stopPointOf, stopTarget, hrecords, hlatch]

/-- R50: with no records and no latch the stop point is NONE. -/
theorem testStopPoint_empty (hrecords : p.queue.records = []) (hlatch : p.queue.latch = none) :
    testStopPoint p = if p.queue.lastStop = .none then p
      else handStop { p with queue := { p.queue with lastStop := .none } } { stop := .none, centre := none } := by
  unfold testStopPoint
  rw [stopPointOf_empty hrecords hlatch]
  simp only [eq_comm (a := StopPoint.none), StopPoint.sleeper, Option.bind_none, Option.map_none]

theorem recordInPosition_empty (hrecords : p.queue.records = []) : recordInPosition p = none := by
  unfold recordInPosition
  split
  · rfl
  · rw [hrecords]; rfl

/-- R45, R46: with no records the record in position is none, and nothing is handed on. -/
theorem renewAndStart_empty (hrecords : p.queue.records = []) :
    renewAndStart p = { p with queue := { p.queue with inPosition := none } } := by
  have hnone : renewInPosition p = ({ p with queue := { p.queue with inPosition := none } }, false) := by
    simp [renewInPosition, recordInPosition_empty hrecords]
  simp only [renewAndStart, hnone]

/-- R9, R45, R50: a queue that has just been emptied stands at no stop point and no record, and hands on a stop point that has
changed. -/
theorem testAndRenew_empty (hrecords : p.queue.records = []) (hlatch : p.queue.latch = none) :
    renewAndStart (testStopPoint p) =
      if p.queue.lastStop = .none then { p with queue := { p.queue with lastStop := .none, inPosition := none } }
      else handStop { p with queue := { p.queue with lastStop := .none, inPosition := none } }
        { stop := .none, centre := none } := by
  rw [testStopPoint_empty hrecords hlatch]
  split
  · next hlast => rw [renewAndStart_empty hrecords, ← hlast]
  · have hqueue := queue_of_offPort (handStop_offPort { p with queue := { p.queue with lastStop := .none } }
      { stop := .none, centre := none })
    rw [renewAndStart_empty ((congrArg Queue.records hqueue).trans hrecords), hqueue, ← handStop_withQueue]

end

/-- R9: the part with the frame placed, and its stop point handed on when it changes. -/
theorem setOrigin_eq_handStop {p : Part} {origin front : Int} {d : Direction}
    (hfront : scannerPoint (originPlaced p origin d) = front) :
    let q : Part := { originPlaced p origin d with
      queue := { p.queue with records := [], latch := none, lastStop := .none, inPosition := none }
      scanner := scannerReset p.scanner front }
    setOrigin p origin d = if p.queue.lastStop = .none then q else handStop q { stop := .none, centre := none } := by
  rw [← hfront]
  exact testAndRenew_empty (p := { originPlaced p origin d with
    scanner := scannerReset p.scanner (scannerPoint (originPlaced p origin d)) }) rfl rfl

theorem isUnreported_iff (r : SleeperRecord) : SleeperRecord.isUnreported r = true ↔
    r.state ∈ [RecordState.tamped, .skipped, .passed, .failed] ∧ r.reported = false := by
  cases h : r.state <;> simp [SleeperRecord.isUnreported, RecordState.isCompleted, h]

theorem originBusy_iff (p : Part) : originBusy p = true ↔
    p.cycle.phase ≠ .idle ∨ p.ctxH.state ≠ .stopped ∨ p.ctxV.state ≠ .stopped ∨
      ∃ x ∈ p.queue.records, x.state ∈ [RecordState.tamped, .skipped, .passed, .failed] ∧ x.reported = false := by
  simp only [originBusy, contextsStopped, Bool.or_eq_true, decide_eq_true_eq, Bool.not_eq_true', Bool.and_eq_false_iff,
    decide_eq_false_iff_not, List.any_eq_true, isUnreported_iff, or_assoc]

theorem directionOfCode_none {n : Nat} (h : 1 < n) : directionOfCode n = none := by
  rcases n with _ | _ | n
  · omega
  · omega
  · rfl

theorem directionOfCode_some {n : Nat} (h : n ≤ 1) : directionOfCode n = some (if n = 0 then .ascending else .descending) := by
  rcases n with _ | _ | n
  · rfl
  · rfl
  · omega

theorem scannerPoint_originPlaced (p : Part) (origin : Int) (d : Direction) :
    scannerPoint (originPlaced p origin d) = origin + dirSign d * p.store.working.scannerOffset := by
  have hc : chainageC (originPlaced p origin d) = origin := (chainageC_set rfl).trans (chainageOf_zero _ _)
  rw [scannerPoint, pointAhead, hc]
  rfl

/-- Settles O17: the refusals in their order, then the frame that is placed. -/
theorem originSetPlacesTheFrame : Obligations.OriginSetPlacesTheFrame := by
  unfold Obligations.OriginSetPlacesTheFrame
  intro s r rest h hf p origin code busy
  have hbusyIff : originBusy (found s.part r rest) = true ↔ busy := originBusy_iff _
  have hgood : -99999999 ≤ origin → origin ≤ 99999999 → ¬ inChainageRange origin = false := fun hlow hhigh => by
    rw [Bool.not_eq_false, inChainageRange_iff]
    exact ⟨hlow, hhigh⟩
  refine ⟨fun hbad => ?_, fun hcode hlow hhigh hbusy => ?_, fun hcode hlow hhigh hbusy => ?_⟩
  · refine (data_taken h rfl hf).trans (block_refused (st := .badField) ?_)
    rcases Nat.lt_or_ge 1 code with hcode | hcode
    · rw [directionOfCode_none hcode]
    · rw [directionOfCode_some hcode]
      refine if_pos ?_
      rw [← Bool.not_eq_true, inChainageRange_iff]
      omega
  · refine (data_taken h rfl hf).trans (block_refused (st := .busy) ?_)
    rw [directionOfCode_some hcode]
    exact (if_neg (hgood hlow hhigh)).trans (if_pos (hbusyIff.2 hbusy))
  · intro d front q
    refine (data_taken h rfl hf).trans (block_ok ?_)
    rw [directionOfCode_some hcode]
    refine (if_neg (hgood hlow hhigh)).trans ((if_neg fun hb => hbusy (hbusyIff.1 hb)).trans ?_)
    have hfront : scannerPoint (originPlaced (found s.part r rest) origin d) = front := by
      rw [scannerPoint_originPlaced]
      simp only [d, front]
      split <;> rfl
    exact congrArg (Answer.ok · []) (setOrigin_eq_handStop hfront)

/-! ### The lowest-numbered record of a kind (R48, R49) -/

/-- Over records in rising number the first that a test accepts is the lowest-numbered that it accepts. -/
theorem find?_eq_lowest {rs : List SleeperRecord} (h : rs.Pairwise fun x y => x.number < y.number)
    {f : SleeperRecord → Bool} {r : SleeperRecord} (hr : r ∈ rs) (hf : f r = true)
    (hlow : ∀ x ∈ rs, f x = true → r.number ≤ x.number) : rs.find? f = some r := by
  cases hfind : rs.find? f with
  | none => exact absurd hf (List.find?_eq_none.1 hfind r hr)
  | some x =>
    obtain ⟨hx, before, after, rfl, hbefore⟩ := List.find?_eq_some_iff_append.1 hfind
    have hle := hlow x (by simp) hx
    obtain ⟨-, hafter, -⟩ := List.pairwise_append.1 h
    rcases List.mem_append.1 hr with hr | hr
    · exact absurd hf (by simpa using hbefore r hr)
    · rcases List.mem_cons.1 hr with rfl | hr
      · rfl
      · have hlt := (List.pairwise_cons.1 hafter).1 r hr
        omega

/-! ### SKIP MARK and HALT CLEAR (R48, R51) -/

section
variable {rs : List SleeperRecord} {h : Nat}

theorem haltsAfter_iff (r : SleeperRecord) :
    (decide (h < r.number) && r.candidate.halt && decide (r.state = .pending)) = true ↔
      h < r.number ∧ r.candidate.halt = true ∧ r.state = .pending := by
  rw [Bool.and_eq_true, Bool.and_eq_true, decide_eq_true_eq, decide_eq_true_eq, and_assoc]

theorem nextHalting_none (hnone : ∀ x ∈ rs, h < x.number → x.candidate.halt = true → x.state ≠ .pending) :
    nextHalting rs h = none := by
  refine List.find?_eq_none.2 fun x hx heq => ?_
  obtain ⟨hlt, hhalt, hpending⟩ := (haltsAfter_iff x).1 heq
  exact hnone x hx hlt hhalt hpending

theorem nextHalting_some {x : SleeperRecord} (hrising : rs.Pairwise fun y z => y.number < z.number) (hx : x ∈ rs)
    (hlt : h < x.number) (hhalt : x.candidate.halt = true) (hpending : x.state = .pending)
    (hlow : ∀ y ∈ rs, h < y.number → y.candidate.halt = true → y.state = .pending → x.number ≤ y.number) :
    nextHalting rs h = some x := by
  refine find?_eq_lowest hrising hx ((haltsAfter_iff x).2 ⟨hlt, hhalt, hpending⟩) fun y hy heq => ?_
  obtain ⟨hlt, hhalt, hpending⟩ := (haltsAfter_iff y).1 heq
  exact hlow y hy hlt hhalt hpending

end

/-- Settles O26: the refusals in their order, then the mark or the latch with its test of the stop point. -/
theorem skipMarkAndHaltClear : Obligations.SkipMarkAndHaltClear := by
  unfold Obligations.SkipMarkAndHaltClear
  refine ⟨fun s r rest h hf => ?_, fun s r rest h hf => ?_⟩
  · intro n action p marked
    refine ⟨fun hbad => (control_taken h rfl hf).trans (block_refused (st := .badField) (if_pos hbad)),
      fun hn haction hnone => ?_, fun x hn hx hpending hskip => ?_⟩
    · refine (control_taken h rfl hf).trans (block_refused (st := .badState) ?_)
      refine (if_neg (by omega)).trans ?_
      cases hx : recordAt p.queue.records n with
      | none => rfl
      | some x => exact if_pos (hnone x hx)
    · have hmark (haction : action ≤ 1) : exec .skipMark s = .next (s.withPart (repliedPart s.part.store.working.partNode r
          (if action = 0 then .ok (markSkip p n (some .manual))
          else if x.candidate.skip.isSome then .ok (startEvent (markSkip p n none))
          else .ok (markSkip p n none)))) := by
        refine (control_taken h rfl hf).trans (block_answers ((if_neg (by omega)).trans ?_))
        rw [hx]
        exact if_neg (by simp [hpending, hskip])
      refine ⟨fun h0 => ?_, fun h1 hclear => ?_, fun h1 hset => ?_⟩
      · exact (hmark (by omega)).trans (block_ok (if_pos h0))
      · exact (hmark (by omega)).trans (block_ok ((if_neg (by omega)).trans (if_neg (by simp [hclear]))))
      · exact (hmark (by omega)).trans (block_ok ((if_neg (by omega)).trans (if_pos (Option.isSome_iff_ne_none.2 hset))))
  · intro p
    refine ⟨fun hlatch => ?_, fun l hlatch hnone => ?_, fun l x hlatch hrising hx hlt hhalt hpending hlow => ?_⟩
    · refine (control_taken h rfl hf).trans (block_ok ?_)
      rw [hlatch]
    · refine (control_taken h rfl hf).trans (block_ok ?_)
      rw [hlatch]
      exact congrArg (fun q => Answer.ok (startEvent (testStopPoint q)) [])
        (by simp only [rearmLatch]; rw [nextHalting_none hnone])
    · refine (control_taken h rfl hf).trans (block_ok ?_)
      rw [hlatch]
      exact congrArg (fun q => Answer.ok (startEvent (testStopPoint q)) [])
        (by simp only [rearmLatch]; rw [nextHalting_some hrising hx hlt hhalt hpending hlow])

end Sys2Proof.Machine
end

section
/-! PROOF. The bytes of a request's fields; the reads (R35, R52, R53, R68, R103); PATTERN SET and PATTERN ENABLE (R33, R34). -/

namespace Sys2Proof.Machine
open Sys2Proof Sys2Proof.Safety

/-! ### The fields of a request -/

theorem fieldNat_byte {fs : List Byte} {i : Nat} {b : Byte} (h : fs[i]? = some b) : fieldNat fs i 1 = b.toNat := by
  obtain ⟨hi, rfl⟩ := List.getElem?_eq_some_iff.1 h
  simp [fieldNat, fieldBytes, List.take_one_drop_eq_of_lt_length hi, readNat]

theorem fieldNat_byte_lt (fs : List Byte) (at_ : Nat) : fieldNat fs at_ 1 < 256 := by
  have h := fieldNat_byte_le fs at_
  omega

/-- R177: a request that is whole has all the field bytes that its field length gives. -/
theorem fields_length {s : State} {r : Request} {rest : List Request} (h : Takes s r rest) :
    r.fields.length = r.fieldLength := by
  obtain ⟨-, -, -, hlen⟩ := h
  simp only [Request.fields, fieldBytes, List.length_take, List.length_drop]
  omega

section
variable {s : State} {r : Request} {rest : List Request} {kind : Nat} {block : Request → Part → Answer}

theorem readOpen_taken (h : AsksRead s r rest kind) (hc : classOfKind kind = some .read) :
    takeOpenKind kind block s =
      .next (s.withPart (repliedPart s.part.store.working.partNode r (block r (found s.part r rest)))) :=
  takeOpenKind_taken h.1 h.2 hc rfl

theorem dataOpen_taken (h : AsksData s r rest kind) (hc : classOfKind kind = some .data) :
    takeOpenKind kind block s =
      .next (s.withPart (repliedPart s.part.store.working.partNode r (block r (found s.part r rest)))) :=
  takeOpenKind_taken h.1 h.2.1 hc (by simp [entitled, h.2.2])

end

/-! ### QUEUE READ, PLAN READ and CORR READ -/

theorem recordAt_none {rs : List SleeperRecord} {n : Nat} (h : ∀ x ∈ rs, x.number ≠ n) : recordAt rs n = none :=
  List.find?_eq_none.2 fun x hx heq => h x hx (by simpa using heq)

theorem byte_bit (b : Bool) : byte (bit b) = if b then 1 else 0 := by cases b <;> rfl

theorem latchCode_eq (l : Option Nat) : latchCode l = (l.getD 0 : Nat) := by cases l <;> rfl

/-- R53: a reply holds at most ten records, and the number of those that follow. -/
theorem listFields_eq (q : Queue) (start : Nat) :
    let above := q.records.filter fun x => decide (start ≤ x.number)
    listFields q start = [byte q.records.length] ++ writeInt 4 (q.latch.getD 0 : Nat) ++
      (above.take 10).flatMap (fun x => writeInt 4 x.number ++
        [byte (x.state.code + if SleeperRecord.isReported x then 128 else 0)]) ++
      [byte (above.length - (above.take 10).length)] := by
  intro above
  have hlen : above.length - (above.take 10).length = above.length - 10 := by
    rw [List.length_take]
    omega
  rw [hlen, ← latchCode_eq]
  rfl

/-- R68: the holder of a slot as PLAN READ returns it. -/
theorem holderFields_eq (p : Part) (k : Nat) :
    let role := fun (c : Context) => match holdsSlot c.current k, holdsSlot c.previous k with
      | true, true => 3 | true, false => 1 | false, true => 2 | false, false => 0
    (match holderOf p k with
      | none => [byte 0, byte 0, byte 0]
      | some x => [byte 1, byte x.1.code, byte x.2]) =
      (if role p.ctxH ≠ 0 then [(1 : Byte), 0, byte (role p.ctxH)]
      else if role p.ctxV ≠ 0 then [1, 1, byte (role p.ctxV)]
      else [0, 0, 0]) := by
  intro role
  simp only [role, holderOf, roleIn]
  rcases holdsSlot p.ctxH.current k with _ | _ <;> rcases holdsSlot p.ctxH.previous k with _ | _
  · rcases holdsSlot p.ctxV.current k with _ | _ <;> rcases holdsSlot p.ctxV.previous k with _ | _ <;> rfl
  · rfl
  · rfl
  · rfl

/-- R101: CORR DATA and CORR READ leave the window open. -/
theorem found_corr_kept {p : Part} {r : Request} {rest : List Request} (h : r.kind = 26 ∨ r.kind = 27) :
    (found p r rest).corr = p.corr := by
  have hkept : windowKept p r = p.corr.window := by
    unfold windowKept
    cases p.corr.window with
    | none => rfl
    | some w => rcases h with h | h <;> simp [Option.filter, h]
  show { p.corr with window := windowKept p r } = p.corr
  rw [hkept]

/-- Settles O27, form by form. -/
theorem readsReturnWhatIsHeld : Obligations.ReadsReturnWhatIsHeld := by
  unfold Obligations.ReadsReturnWhatIsHeld
  refine ⟨fun s r rest h hf => ?_, fun s r rest h hf => ?_, fun s r rest h => ?_⟩
  · intro form n q above
    refine ⟨fun hform => ?_, fun hform hnone => ?_, fun x hform hx => ?_, fun hform => ?_⟩
    · refine (read_taken h rfl hf).trans (block_refused (st := .badField) ?_)
      dsimp only
      split
      · next h0 => exact absurd h0 (by omega)
      · next h1 => exact absurd h1 (by omega)
      · rfl
    · refine (read_taken h rfl hf).trans (block_refused (st := .badState) ?_)
      have hx : recordAt (found s.part r rest).queue.records (fieldNat r.fields 1 4) = none := recordAt_none hnone
      simp only [show fieldNat r.fields 0 1 = 0 from hform, hx]
    · refine (read_taken h rfl hf).trans (block_ok ?_)
      have hx : recordAt (found s.part r rest).queue.records (fieldNat r.fields 1 4) = some x := hx
      simp only [show fieldNat r.fields 0 1 = 0 from hform, hx, readRecordFields, byte_bit]
    · refine (read_taken h rfl hf).trans (block_ok ?_)
      simp only [show fieldNat r.fields 0 1 = 1 from hform, listFields_eq]
      rfl
  · intro k v role holder
    have hholder : (match if v.state = .inUse then holderOf (found s.part r rest) k else none with
        | none => [byte 0, byte 0, byte 0]
        | some x => [byte 1, byte x.1.code, byte x.2]) = holder := by
      by_cases hu : v.state = .inUse
      · simp only [holder, ne_eq, hu, not_true_eq_false, if_false]
        exact holderFields_eq s.part k
      · simp only [holder, ne_eq, hu, not_false_eq_true, if_true]
        rfl
    have hread (hk : k ≤ 511) : exec .planRead s = .next (replied s (found s.part r rest) r 0
        ([byte v.state.code, byte (completionCode v.code)] ++ holder ++
          (match v.contents with | none => [byte 0] | some desc => byte 1 :: descriptorFields desc))) := by
      refine (read_taken h rfl hf).trans (block_ok ((if_neg ?_).trans ?_))
      · simpa [slotNumber] using hk
      · rw [← hholder]
        rfl
    refine ⟨fun hk => ?_, fun hk hnone => ?_, fun d hk hd => ?_⟩
    · exact (read_taken h rfl hf).trans (block_refused (st := .badField) (if_pos (by simpa [slotNumber] using hk)))
    · rw [hread hk, hnone]
      rfl
    · rw [hread hk, hd]
      rfl
  · intro form c entry
    have hentry : ∀ n, entryFields (found s.part r rest).corr n = entry n := fun _ => rfl
    refine ⟨fun h0 => ?_, fun h0 hform => ?_, fun h0 hlen => ?_, fun hform hlen => ?_, fun hform hlen => ?_⟩
    · exact (readOpen_taken h rfl).trans (block_refused (st := .badLength) (if_pos h0))
    · refine (readOpen_taken h rfl).trans (block_refused (st := .badField) ((if_neg h0).trans ?_))
      split
      · next heq => exact absurd heq (by omega)
      · next heq => exact absurd heq (by omega)
      · rfl
    · refine (readOpen_taken h rfl).trans (block_refused (st := .badLength) ((if_neg h0).trans ?_))
      rcases hlen with ⟨hform, hlen⟩ | ⟨hform, hlen⟩
      · simp only [show fieldNat r.fields 0 1 = 0 from hform]
        exact if_pos hlen
      · simp only [show fieldNat r.fields 0 1 = 1 from hform]
        exact if_pos hlen
    · intro n
      have hread : exec .corrRead s = .next (s.withPart (repliedPart s.part.store.working.partNode r
          (if 255 < n then .refuse (found s.part r rest) .badField
          else .ok (found s.part r rest) (entryFields (found s.part r rest).corr n)))) := by
        refine (readOpen_taken h rfl).trans (block_answers ((if_neg (by omega)).trans ?_))
        simp only [show fieldNat r.fields 0 1 = 1 from hform]
        exact if_neg (by omega)
      exact ⟨fun hn => hread.trans (block_refused (st := .badField) (if_pos hn)),
        fun hn => hread.trans (block_ok ((if_neg (by omega)).trans rfl))⟩
    · have hread : exec .corrRead s = .next (s.withPart (repliedPart s.part.store.working.partNode r
          (readAtCursor r (found s.part r rest)))) := by
        refine (readOpen_taken h rfl).trans (block_answers ((if_neg (by omega)).trans ?_))
        simp only [show fieldNat r.fields 0 1 = 0 from hform]
        exact if_neg (by omega)
      have hwindow : (found s.part r rest).corr = c := found_corr_kept (.inr h.2)
      refine ⟨fun hnone => hread.trans (block_refused (st := .noWindow) ?_), fun w hw howner =>
        hread.trans (block_refused (st := .notOwner) ?_), fun w hw howner => hread.trans (block_ok ?_)⟩
      · simp only [readAtCursor, hwindow, hnone]
      · simp only [readAtCursor, hwindow, hw]
        exact if_pos howner
      · simp only [readAtCursor, hwindow, hw]
        refine (if_neg (not_not.2 howner)).trans ?_
        obtain ⟨owner, first, last, cursor, mode⟩ := w
        cases mode <;> rfl

end Sys2Proof.Machine
end

section
/-! PROOF. PATTERN SET, PATTERN ENABLE and PATTERN READ (R33 to R35, R175, R192). -/

namespace Sys2Proof.Machine
open Sys2Proof Sys2Proof.Safety

/-! ### Sets of flags in a byte -/

theorem bitsOf_testBit (l : List Bool) : ∀ i, (bitsOf l).testBit i = l.getD i false := by
  induction l with
  | nil => intro i; simp [bitsOf]
  | cons b rest ih =>
    intro i
    have hcons : bitsOf (b :: rest) = Nat.bit b (bitsOf rest) := by
      cases b <;> simp [bitsOf, Nat.bit, Nat.add_comm]
    rw [hcons]
    cases i with
    | zero => simp
    | succ i => rw [Nat.testBit_bit_succ, ih]; simp

/-- The weight of a flag in the number that carries it. -/
theorem testBit_weight (n i : Nat) : (if testBit n i then 1 else 0) = n / 2 ^ i % 2 := by
  rw [testBit, Nat.testBit_eq_decide_div_mod_eq]
  rcases Nat.mod_two_eq_zero_or_one (n / 2 ^ i) with h | h <;> simp [h]

/-- R192: a fold set reads back from its byte. -/
theorem bits_armsOfByte {n : Nat} (h : n < 256) : ArmSet.bits (armsOfByte n) = n := by
  simp only [ArmSet.bits, allArms, List.map, PerArm.get, armsOfByte, bitsOf, testBit_weight]
  omega

theorem bits_low {n : Nat} : ScanLines.bits (linesOfByte n 0) = n % 16 := by
  show bitsOf [testBit n 0, testBit n 1, testBit n 2, testBit n 3] = _
  simp only [bitsOf, testBit_weight]
  omega

theorem bits_high {n : Nat} (h : n < 256) : ScanLines.bits (linesOfByte n 4) = n / 16 := by
  show bitsOf [testBit n 4, testBit n 5, testBit n 6, testBit n 7] = _
  simp only [bitsOf, testBit_weight]
  omega

/-- R33: the lines of the value outside the mask are absent. -/
theorem bits_maskedLines (value mask : ScanLines) :
    ScanLines.bits (maskedLines value mask) = ScanLines.bits value &&& ScanLines.bits mask := by
  refine Nat.eq_of_testBit_eq fun i => ?_
  rw [Nat.testBit_and]
  simp only [ScanLines.bits, maskedLines, bitsOf_testBit]
  rcases i with _ | _ | _ | _ | i <;> simp

/-- R33, R175: the mask and the value that a byte of a cell gives. -/
theorem bits_cellOfByte (b : Byte) : ScanLines.bits (cellOfByte b).mask = b.toNat / 16 ∧
    ScanLines.bits (cellOfByte b).value = (b.toNat % 16) &&& (b.toNat / 16) := by
  have hb : b.toNat < 256 := b.isLt
  simp only [cellOfByte, bits_maskedLines, bits_low, bits_high hb, and_self]

theorem bits_eq_zero_iff (x : ArmSet) : ArmSet.bits x = 0 ↔ ArmSet.isEmpty x = true := by
  have hbit : ∀ b : Bool, (if b then 1 else 0) = 0 ↔ b = false := by decide
  simp only [ArmSet.bits, ArmSet.isEmpty, allArms, List.map, bitsOf, List.all_cons, List.all_nil, Bool.and_true,
    Bool.and_eq_true, Bool.not_eq_true', Nat.add_eq_zero_iff, Nat.mul_eq_zero, hbit, OfNat.ofNat_ne_zero, false_or, and_true]

/-- R33: a fold set comes with the action FOLD, and with no other. -/
theorem foldSetGood_iff {n : Nat} (h : n < 256) (a : PatternAction) :
    ArmSet.isEmpty (armsOfByte n) = decide (a = .fold) ↔ ¬ (a.code = 1 ↔ n ≠ 0) := by
  have hempty : ArmSet.isEmpty (armsOfByte n) = decide (n = 0) := by
    rw [Bool.eq_iff_iff, ← bits_eq_zero_iff, bits_armsOfByte h, decide_eq_true_eq]
  have hfold : a = .fold ↔ a.code = 1 := by cases a <;> decide
  rw [hempty, decide_eq_decide, hfold]
  tauto

/-! ### The slots -/

theorem enableOfCode_iff (n : Nat) (e : Bool) : enableOfCode n = some e ↔ n = bit e := by
  rcases n with _ | _ | n <;> cases e <;> simp [enableOfCode, bit]

theorem exists_enable {n : Nat} (h : n ≤ 1) : ∃ e, enableOfCode n = some e := by
  rcases n with _ | _ | n
  · exact ⟨_, rfl⟩
  · exact ⟨_, rfl⟩
  · omega

theorem exists_action {n : Nat} (h : n ≤ 3) : ∃ a, actionOfCode n = some a := by
  rcases n with _ | _ | _ | _ | n
  · exact ⟨_, rfl⟩
  · exact ⟨_, rfl⟩
  · exact ⟨_, rfl⟩
  · exact ⟨_, rfl⟩
  · omega

theorem switchPattern_eq (c : Nat) (pt : Pattern) : switchPattern c pt =
    { pt with enabled := if c = 0 then false else if c = 1 then true else pt.enabled } := by
  rcases c with _ | _ | c <;> rfl

/-- R34: a code beyond KEEP stands in one of the six fields. -/
theorem codeRefused_iff {fs : List Byte} (h : fs.length = 6) :
    (fs.any fun b => decide (2 < b.toNat)) = true ↔ ∃ i, i < 6 ∧ 2 < fieldNat fs i 1 := by
  rw [List.any_eq_true]
  constructor
  · rintro ⟨b, hb, hlt⟩
    obtain ⟨i, hi, rfl⟩ := List.getElem_of_mem hb
    exact ⟨i, by omega, by rw [fieldNat_byte (List.getElem?_eq_getElem hi)]; simpa using hlt⟩
  · rintro ⟨i, hi, hlt⟩
    have hi' : i < fs.length := by omega
    rw [fieldNat_byte (List.getElem?_eq_getElem hi')] at hlt
    exact ⟨_, List.getElem_mem hi', by simpa using hlt⟩

theorem patternSlot_none {t : PerSlot Pattern} {n : Nat} (h : n < 1 ∨ 6 < n) : t.get? n = none := by
  rcases h with h | h
  · obtain rfl : n = 0 := by omega
    rfl
  · have hlen : [t.s1, t.s2, t.s3, t.s4, t.s5, t.s6][n - 1]? = none := List.getElem?_eq_none (by simp; omega)
    simp only [PerSlot.get?, hlen, Option.filter_none]

theorem patternSlot_some {t : PerSlot Pattern} {n : Nat} {pt : Pattern} (hn : 1 ≤ n) (h : t.toList[n - 1]? = some pt) :
    t.get? n = some pt := by
  have h : [t.s1, t.s2, t.s3, t.s4, t.s5, t.s6][n - 1]? = some pt := h
  have hn : n ≠ 0 := by omega
  simp [PerSlot.get?, h, hn]

theorem patternFields_eq (pt : Pattern) : patternFields pt =
    [if pt.enabled then 1 else 0, byte pt.cells.length] ++ writeInt 1 pt.anchor ++
      [byte pt.action.code, byte (ArmSet.bits pt.foldSet), byte pt.insertions] ++
      pt.cells.map fun c => byte (ScanLines.bits c.value + 16 * ScanLines.bits c.mask) := by
  rw [← byte_bit]
  rfl

/-- Settles O22, request by request. -/
theorem patternsAreSetSwitchedAndRead : Obligations.PatternsAreSetSwitchedAndRead := by
  unfold Obligations.PatternsAreSetSwitchedAndRead
  refine ⟨fun s r rest h => ?_, fun s r rest h hf => ?_, fun s r rest h hf => ?_⟩
  · intro fs slot enable n anchor action folds insertions fieldsGood
    have hlen : fs.length = r.fieldLength := fields_length h.1
    have hfolds : folds < 256 := fieldNat_byte_lt fs 6
    have hrefused {e : Bool} {a : PatternAction} (he : enableOfCode enable = some e) (ha : actionOfCode action = some a) :
        (slot < 1 ∨ 6 < slot ∨ n < 1 ∨ 48 < n ∨ anchor < -16 ∨ 16 < anchor ∨ 4 < insertions ∨
          ArmSet.isEmpty (armsOfByte folds) = decide (a = .fold)) ↔ ¬ fieldsGood := by
      have henable : enable ≤ 1 := by
        rw [(enableOfCode_iff _ _).1 he]
        cases e <;> decide
      have haction := (actionOfCode_iff _ _).1 ha
      have hcode : action ≤ 3 := by
        rw [haction]
        cases a <;> decide
      rw [foldSetGood_iff hfolds, ← haction]
      simp only [fieldsGood]
      omega
    refine ⟨fun hshort => ?_, fun hlong hbad => ?_, fun hlong hgood hne => ?_, fun hgood hF => ?_⟩
    · exact (dataOpen_taken h rfl).trans (block_refused (st := .badLength) (if_pos (hlen.trans_lt hshort)))
    · refine (dataOpen_taken h rfl).trans (block_refused (st := .badField) ((if_neg (not_lt.2 (hlen ▸ hlong))).trans ?_))
      cases he : enableOfCode enable with
      | none => rfl
      | some e =>
        cases ha : actionOfCode action with
        | none => rfl
        | some a => exact if_pos ((hrefused he ha).2 hbad)
    · obtain ⟨e, he⟩ := exists_enable (n := enable) hgood.2.2.1
      obtain ⟨a, ha⟩ := exists_action (n := action) hgood.2.2.2.2.2.2.2.1
      refine (dataOpen_taken h rfl).trans (block_refused (st := .badLength) ((if_neg (not_lt.2 (hlen ▸ hlong))).trans ?_))
      rw [he, ha]
      exact (if_neg fun hbad => (hrefused he ha).1 hbad hgood).trans (if_pos fun heq : fs.length - 8 = n => hne (by omega))
    · obtain ⟨e, he⟩ := exists_enable (n := enable) hgood.2.2.1
      obtain ⟨a, ha⟩ := exists_action (n := action) hgood.2.2.2.2.2.2.2.1
      have hcells : ((fs.drop 8).map cellOfByte).length = n := by
        rw [List.length_map, List.length_drop]
        omega
      refine ⟨{ enabled := e, anchor := anchor, cells := (fs.drop 8).map cellOfByte, action := a,
                foldSet := armsOfByte folds, insertions := insertions }, ?_, ?_, rfl, ?_, rfl, bits_armsOfByte hfolds, hcells, ?_⟩
      · refine (dataOpen_taken h rfl).trans (block_ok ((if_neg (show ¬ fs.length < 8 by omega)).trans ?_))
        rw [he, ha]
        exact (if_neg fun hbad => (hrefused he ha).1 hbad hgood).trans
          (if_neg fun hne : fs.length - 8 ≠ n => hne (by omega))
      · rw [(enableOfCode_iff _ _).1 he]
        show e = true ↔ bit e = 1
        cases e <;> decide
      · exact ((actionOfCode_iff _ _).1 ha).symm
      · intro k b pc hb hpc
        rw [List.getElem?_map, hb] at hpc
        cases hpc
        exact bits_cellOfByte b
  · intro code sw t
    have hlen : r.fields.length = 6 := (fields_length h.1).trans hf
    refine ⟨fun hbad => ?_, fun hgood => ?_⟩
    · exact (control_taken h rfl hf).trans (block_refused (st := .badField) (if_pos ((codeRefused_iff hlen).2 hbad)))
    · refine (control_taken h rfl hf).trans (block_ok ((if_neg ?_).trans ?_))
      · rw [codeRefused_iff hlen]
        rintro ⟨i, hi, hlt⟩
        exact absurd (hgood i hi) (not_le.2 hlt)
      · simp only [switchPatterns, switchPattern_eq]
        rfl
  · intro slot
    refine ⟨fun hbad => ?_, fun pt hpt hslot => ?_⟩
    · refine (read_taken h rfl hf).trans (block_refused (st := .badField) ?_)
      simp only [show (found s.part r rest).scanner.patterns.get? (fieldNat r.fields 0 2) = none from patternSlot_none hbad]
    · refine (read_taken h rfl hf).trans (block_ok ?_)
      simp only [show (found s.part r rest).scanner.patterns.get? (fieldNat r.fields 0 2) = some pt from
        patternSlot_some hslot hpt, patternFields_eq]

end Sys2Proof.Machine
end

section
/-! PROOF. CORR GRID, CORR WINDOW and CORR DATA (R99 to R102). -/

namespace Sys2Proof.Machine
open Sys2Proof Sys2Proof.Safety

/-! ### CORR GRID and CORR WINDOW -/

theorem windowModeOfCode_some {n : Nat} (h : n ≤ 1) : windowModeOfCode n = some (if n = 0 then .write else .edit) := by
  rcases n with _ | _ | n
  · rfl
  · rfl
  · omega

theorem windowModeOfCode_none {n : Nat} (h : 1 < n) : windowModeOfCode n = none := by
  rcases n with _ | _ | n
  · omega
  · omega
  · rfl

/-- R101: a kind that is decided against the window as it stood when the request was taken. -/
theorem exec_corrGrid {s : State} {r : Request} {rest : List Request} (h : AsksData s r rest 24) (hf : r.fieldLength = 8) :
    let base := fieldInt r.fields 0 4
    let spacing := fieldNat r.fields 4 4
    let p := found s.part r rest
    exec .corrGrid s = .next (s.withPart (repliedPart s.part.store.working.partNode r
      (if inChainageRange base = false ∨ spacing < 1000 ∨ 20000 < spacing then .refuse p .badField
      else if s.part.corr.window.isSome then .refuse p .busy
      else .ok (p.withCorr { p.corr with entries := [], base := base, spacing := spacing })))) := by
  obtain ⟨htakes, hkind, hnode⟩ := h
  obtain ⟨⟨hp, hx, ht, hq⟩, hready, hlong⟩ := id htakes
  rw [← foundPart_eq]
  exact takeOldest_taken (accepts := (· == 24)) (flen := some 8) hp hready hx ht hq (by simp [hkind]) (tooShort_eq_false htakes)
    (by rw [hkind]; rfl) (by simp [entitled, hnode]) (by simp [hf])

/-- Settles O37, by the fields in their order. -/
theorem corrGridAndWindow : Obligations.CorrGridAndWindow := by
  unfold Obligations.CorrGridAndWindow
  refine ⟨fun s r rest h hf => ?_, fun s r rest h hf => ?_⟩
  · intro base spacing good
    have hrefused : (inChainageRange base = false ∨ spacing < 1000 ∨ 20000 < spacing) ↔ ¬ good := by
      rw [← Bool.not_eq_true, inChainageRange_iff]
      simp only [good]
      omega
    have hexec := exec_corrGrid h hf
    refine ⟨fun hbad => ?_, fun hgood hwindow => ?_, fun hgood hwindow => ?_⟩
    · exact hexec.trans (block_refused (st := .badField) (if_pos (hrefused.2 hbad)))
    · exact hexec.trans (block_refused (st := .busy) ((if_neg fun hbad => hrefused.1 hbad hgood).trans
        (if_pos (Option.isSome_iff_ne_none.2 hwindow))))
    · refine hexec.trans (block_ok ((if_neg fun hbad => hrefused.1 hbad hgood).trans ((if_neg (by simp [hwindow])).trans ?_)))
      have hkept : (found s.part r rest).corr.window = none := by simp [found, windowKept, hwindow]
      exact congrArg (fun window => Answer.ok ((found s.part r rest).withCorr
        { entries := [], base := base, spacing := spacing, window := window })) hkept
  · intro first last code good
    refine ⟨fun hbad => ?_, fun hgood => ?_⟩
    · refine (data_taken h rfl hf).trans (block_refused (st := .badField) ?_)
      rcases Nat.lt_or_ge 1 code with hcode | hcode
      · simp only [show windowModeOfCode (fieldNat r.fields 4 1) = none from windowModeOfCode_none hcode]
      · simp only [show windowModeOfCode (fieldNat r.fields 4 1) = _ from windowModeOfCode_some hcode]
        refine if_pos ?_
        simp only [good] at hbad
        omega
    · refine (data_taken h rfl hf).trans (block_ok ?_)
      obtain ⟨hle, hlast, hcode⟩ := hgood
      simp only [show windowModeOfCode (fieldNat r.fields 4 1) = _ from windowModeOfCode_some hcode]
      exact if_neg (by omega)

/-! ### CORR DATA -/

/-- R102, R175: the pairs that the field bytes hold, one after the other. -/
theorem pairsOf_eq (n : Nat) : ∀ fs : List Byte, fs.length = 4 * n →
    pairsOf fs = (List.range n).map fun i => (fieldInt fs (4 * i) 2, fieldInt fs (4 * i + 2) 2) := by
  induction n with
  | zero =>
    intro fs hlen
    obtain rfl : fs = [] := List.length_eq_zero_iff.1 hlen
    rfl
  | succ n ih =>
    intro fs hlen
    match fs, hlen with
    | b0 :: b1 :: b2 :: b3 :: rest, hlen =>
      have hrest : rest.length = 4 * n := by
        simp only [List.length_cons] at hlen
        omega
      rw [pairsOf, ih rest hrest, List.range_succ_eq_map, List.map_cons, List.map_map]
      rfl

/-- R102: the cursor after a number of pairs: it wraps from the last entry to the first. -/
def cursorAfter (w : CorrWindow) (n : Nat) : Nat := w.first + (w.cursor - w.first + n) % (w.last - w.first + 1)

theorem succ_mod (m : Nat) {s : Nat} (hs : 0 < s) : (m + 1) % s = if m % s + 1 = s then 0 else m % s + 1 := by
  have hm := Nat.mod_add_div m s
  have hlt := Nat.mod_lt m hs
  split
  · next h =>
    rw [show m + 1 = s * (m / s + 1) by rw [Nat.mul_add]; omega, Nat.mul_mod_right]
  · rw [show m + 1 = s * (m / s) + (m % s + 1) by omega, Nat.mul_add_mod, Nat.mod_eq_of_lt (by omega)]

section
variable {w : CorrWindow} (hfirst : w.first ≤ w.cursor) (hlast : w.cursor ≤ w.last)
include hfirst hlast

theorem cursorAfter_zero : cursorAfter w 0 = w.cursor := by
  rw [cursorAfter, Nat.add_zero, Nat.mod_eq_of_lt (by omega)]
  omega

theorem advance_cursorAfter (n : Nat) :
    advanceCursor { w with cursor := cursorAfter w n } = { w with cursor := cursorAfter w (n + 1) } := by
  have hsucc : cursorAfter w (n + 1) = if cursorAfter w n = w.last then w.first else cursorAfter w n + 1 := by
    have hnow : cursorAfter w n = w.first + (w.cursor - w.first + n) % (w.last - w.first + 1) := rfl
    have hnext : cursorAfter w (n + 1) = w.first + (w.cursor - w.first + n + 1) % (w.last - w.first + 1) := rfl
    rw [hnext, succ_mod _ (by omega)]
    by_cases hwrap : (w.cursor - w.first + n) % (w.last - w.first + 1) + 1 = w.last - w.first + 1
    · rw [if_pos hwrap, if_pos (by omega), Nat.add_zero]
    · rw [if_neg hwrap, if_neg (by omega), hnow, Nat.add_assoc]
  rw [hsucc]
  rfl

variable (es : Table CorrEntry) (hwf : Table.wf unsetEntry es = true) (pair : Nat → Int × Int)
include hwf

/-- R102: what the table and the window are after the first n pairs. -/
theorem writePairs_holds (n : Nat) :
    let c := ((List.range n).map pair).foldl writePair (es, w)
    c.2 = { w with cursor := cursorAfter w n } ∧ Table.wf unsetEntry c.1 = true ∧
    (∀ i, i < n → (∀ j, i < j → j < n → cursorAfter w j ≠ cursorAfter w i) →
      entryAt c.1 (cursorAfter w i) = { lateral := storedHalf (pair i).1, vertical := storedHalf (pair i).2 }) ∧
    (∀ k, (∀ i, i < n → cursorAfter w i ≠ k) → entryAt c.1 k = entryAt es k) := by
  induction n with
  | zero => exact ⟨by rw [cursorAfter_zero hfirst hlast]; rfl, hwf, fun i hi => absurd hi (Nat.not_lt_zero i), fun _ _ => rfl⟩
  | succ n ih =>
    intro c
    obtain ⟨hwindow, hcwf, hwritten, hkept⟩ := ih
    have hc : c = writePair (((List.range n).map pair).foldl writePair (es, w)) (pair n) := by
      simp only [c, List.range_succ, List.map_append, List.foldl_append]
      rfl
    generalize ((List.range n).map pair).foldl writePair (es, w) = before at hwindow hcwf hwritten hkept hc
    obtain ⟨bes, bw⟩ := before
    simp only at hwindow hcwf hwritten hkept
    subst hwindow
    have hread := entryAt_setEntry bes (cursorAfter w n)
    rw [hc]
    refine ⟨advance_cursorAfter hfirst hlast n, setEntry_wf _ _ _ hcwf, fun i hi hlater => ?_, fun k hk => ?_⟩
    · show entryAt (setEntry bes (cursorAfter w n) _) _ = _
      rw [hread _ _ hcwf]
      rcases Nat.lt_succ_iff_lt_or_eq.1 hi with hlt | rfl
      · rw [if_neg fun heq => hlater n hlt (Nat.lt_succ_self n) heq.symm]
        exact hwritten i hlt fun j hij hj => hlater j hij (Nat.lt_succ_of_lt hj)
      · rw [if_pos rfl]
    · show entryAt (setEntry bes (cursorAfter w n) _) _ = _
      rw [hread _ _ hcwf, if_neg fun heq => hk n (Nat.lt_succ_self n) heq.symm]
      exact hkept k fun i hi => hk i (Nat.lt_succ_of_lt hi)

end

theorem storedHalf_eq (v : Int) : storedHalf v = if v = -32768 then none else some (max (-2000) (min 2000 v)) := by
  rw [storedHalf, clampTo_eq_max_min (by norm_num)]
  rfl

theorem halfClamped_iff (v : Int) : halfClamped v = true ↔ v ≠ -32768 ∧ (v < -2000 ∨ 2000 < v) := by
  rw [halfClamped, Bool.and_eq_true, decide_eq_true_eq, decide_eq_true_eq, clampTo_eq_max_min (by norm_num)]
  simp only [unsetMarker]
  omega

/-- Settles O38: who may send it, and the fold over the pairs. -/
theorem corrDataWritesItsPairs : Obligations.CorrDataWritesItsPairs := by
  unfold Obligations.CorrDataWritesItsPairs
  intro s r rest h
  have hcorr : (found s.part r rest).corr = s.part.corr := found_corr_kept (.inl h.2)
  refine ⟨fun hnone => ?_, fun w hw howner => ?_, fun w hw howner hlen => ?_, fun w n hw howner hlen hn1 hn14 hlegal => ?_⟩
  · refine (readOpen_taken h rfl).trans (block_refused (st := .noWindow) ?_)
    simp only [hcorr, hnone]
  · refine (readOpen_taken h rfl).trans (block_refused (st := .notOwner) ?_)
    simp only [hcorr, hw]
    exact if_pos howner
  · refine (readOpen_taken h rfl).trans (block_refused (st := .badLength) ?_)
    simp only [hcorr, hw]
    exact (if_neg (not_not.2 howner)).trans (if_pos hlen)
  · intro value stored size cursor clamped
    obtain ⟨hwf, -, -, -, -, hbounds⟩ := hlegal
    obtain ⟨hfirst, hlast, -⟩ := hbounds w hw
    have hpairs : pairsOf r.fields = (List.range n).map fun i => (value i 0, value i 1) :=
      pairsOf_eq n r.fields ((fields_length h.1).trans hlen)
    obtain ⟨hwindow, -, hwritten, hkept⟩ := writePairs_holds hfirst hlast s.part.corr.entries hwf
      (fun i => (value i 0, value i 1)) n
    have hclamped : ((pairsOf r.fields).any fun x => halfClamped x.1 || halfClamped x.2) = true ↔ clamped := by
      simp only [hpairs, List.any_map, List.any_eq_true, List.mem_range, Function.comp_apply, Bool.or_eq_true, halfClamped_iff]
      constructor
      · rintro ⟨i, hi, hv | hv⟩
        · exact ⟨i, 0, hi, by norm_num, hv⟩
        · exact ⟨i, 1, hi, by norm_num, hv⟩
      · rintro ⟨i, _ | _ | h, hi, hh, hv⟩
        · exact ⟨i, hi, .inl hv⟩
        · exact ⟨i, hi, .inr hv⟩
        · omega
    have hexec (st : Status) (hst : (if (pairsOf r.fields).any fun x => halfClamped x.1 || halfClamped x.2 then
        Status.clamped else .ok) = st) : exec .corrData s = .next (s.withPart (repliedPart s.part.store.working.partNode r
          ⟨{ found s.part r rest with corr := { s.part.corr with
            entries := (((List.range n).map fun i => (value i 0, value i 1)).foldl writePair (s.part.corr.entries, w)).1
            window := some { w with cursor := cursor n } } }, st, writeInt 2 (cursor n)⟩)) := by
      refine (readOpen_taken h rfl).trans (block_answers ?_)
      simp only [hcorr, hw]
      refine (if_neg (not_not.2 howner)).trans ((if_neg (by omega)).trans ?_)
      rw [hst, hpairs, hwindow]
      rfl
    refine ⟨_, if (pairsOf r.fields).any fun x => halfClamped x.1 || halfClamped x.2 then 1 else 0, ?_,
      fun hc => if_pos (hclamped.2 hc), fun hc => if_neg fun hany => hc (hclamped.1 hany),
      fun i hi hlater => (hwritten i hi hlater).trans (by rw [storedHalf_eq, storedHalf_eq]), hkept⟩
    cases hany : (pairsOf r.fields).any fun x => halfClamped x.1 || halfClamped x.2
    · exact (hexec .ok (by rw [hany]; rfl)).trans (block_ok rfl)
    · exact (hexec .clamped (by rw [hany]; rfl)).trans (block_clamped rfl)

end Sys2Proof.Machine
end

section
/-! PROOF. The numbered stores, the descriptors in bytes, PLAN WRITE, PLAN LINK and PLAN CLEAR (R56 to R60, R63 to R67, R95, R191). -/

namespace Sys2Proof.Machine
open Sys2Proof Sys2Proof.Safety

/-- Settles O28, by the two laws of a numbered store and the filter that clears a range. -/
theorem storesReadBackAsWritten : Obligations.StoresReadBackAsWritten := by
  unfold Obligations.StoresReadBackAsWritten
  refine ⟨fun plan k j v h => ⟨?_, setSlot_wf plan k v h⟩, fun es k j v h => ⟨?_, setEntry_wf es k v h⟩,
    fun plan first last j h => ⟨slotAt_clearSlots first last j h, Table.wf_filter _ h⟩⟩
  · rw [slotAt_setSlot plan k j v h]
  · rw [entryAt_setEntry es k j v h]

/-! ### Links and ranges -/

theorem within_iff (lo hi x : Int) : within lo hi x = true ↔ lo ≤ x ∧ x ≤ hi := by rw [within, decide_eq_true_eq]

theorem slotNumber_iff (n : Nat) : slotNumber n = true ↔ n ≤ 511 := by rw [slotNumber, decide_eq_true_eq]

/-- R60, R191: the bytes at a place hold a link that PLAN WRITE and PLAN LINK take. -/
def LinkGood (fs : List Byte) (at_ : Nat) : Prop :=
  fieldNat fs at_ 1 = 0 ∨ fieldNat fs at_ 1 = 1 ∧ fieldNat fs (at_ + 1) 2 ≤ 511

/-- R60, R191: the link that the bytes at a place hold. -/
def linkAt (fs : List Byte) (at_ : Nat) : Option Nat := if fieldNat fs at_ 1 = 0 then none else some (fieldNat fs (at_ + 1) 2)

theorem presence_some_iff {α : Type} (code : Nat) (v : α) (o : Option α) :
    presence code v = some o ↔ (code = 0 ∨ code = 1) ∧ o = if code = 0 then none else some v := by
  unfold presence
  by_cases h0 : code = 0
  · simp [h0, eq_comm]
  · by_cases h1 : code = 1
    · simp [h1, eq_comm]
    · simp [h0, h1]

theorem linkField_some_iff (fs : List Byte) (at_ : Nat) (l : Option Nat) :
    linkField fs at_ = some l ↔ LinkGood fs at_ ∧ l = linkAt fs at_ := by
  rw [linkField, Option.filter_eq_some_iff, presence_some_iff, LinkGood, linkAt]
  by_cases h0 : fieldNat fs at_ 1 = 0
  · simp only [h0, true_or, if_true, true_and]
    constructor
    · exact fun h => h.1
    · rintro rfl
      exact ⟨rfl, rfl⟩
  · simp only [h0, false_or, if_false]
    constructor
    · rintro ⟨⟨h1, rfl⟩, hslot⟩
      exact ⟨⟨h1, (slotNumber_iff _).1 hslot⟩, rfl⟩
    · rintro ⟨⟨h1, hslot⟩, rfl⟩
      exact ⟨⟨h1, rfl⟩, (slotNumber_iff _).2 hslot⟩

theorem linkField_none {fs : List Byte} {at_ : Nat} (h : ¬ LinkGood fs at_) : linkField fs at_ = none := by
  cases hl : linkField fs at_ with
  | none => rfl
  | some l => exact absurd ((linkField_some_iff fs at_ l).1 hl).1 h

theorem linkField_some {fs : List Byte} {at_ : Nat} (h : LinkGood fs at_) : linkField fs at_ = some (linkAt fs at_) :=
  (linkField_some_iff fs at_ _).2 ⟨h, rfl⟩

theorem linkAt_writable {fs : List Byte} {at_ : Nat} (h : LinkGood fs at_) : LinkWritable (linkAt fs at_) := by
  intro k hk
  unfold linkAt at hk
  split at hk
  · cases hk
  · next h0 =>
    cases hk
    exact (h.resolve_left h0).2

/-! ### The segments in bytes (R57, R58, R191) -/

/-- R57: the fields of a SEGMENT-H lie within their ranges. -/
def SegmentHGood (fs : List Byte) : Prop :=
  (500 ≤ (fieldNat fs 3 4 : Int) ∧ (fieldNat fs 3 4 : Int) ≤ 1000000) ∧
  (-20000 ≤ fieldInt fs 7 2 ∧ fieldInt fs 7 2 ≤ 20000) ∧ (-20000 ≤ fieldInt fs 9 2 ∧ fieldInt fs 9 2 ≤ 20000) ∧
  (-2000 ≤ fieldInt fs 11 2 ∧ fieldInt fs 11 2 ≤ 2000) ∧ (-2000 ≤ fieldInt fs 13 2 ∧ fieldInt fs 13 2 ≤ 2000) ∧
  fieldNat fs 15 1 ≤ 2 ∧ LinkGood fs 16 ∧
  (fieldNat fs 19 1 = 0 ∨ fieldNat fs 19 1 = 1 ∧ (-2000 ≤ fieldInt fs 20 2 ∧ fieldInt fs 20 2 ≤ 6000) ∧
    (-2000 ≤ fieldInt fs 22 2 ∧ fieldInt fs 22 2 ≤ 6000))

/-- R57, R191: the SEGMENT-H that its bytes hold. -/
def segmentHAt (fs : List Byte) : SegmentH where
  length := fieldNat fs 3 4
  curvatureStart := fieldInt fs 7 2
  curvatureEnd := fieldInt fs 9 2
  cantStart := fieldInt fs 11 2
  cantEnd := fieldInt fs 13 2
  reference := if fieldNat fs 15 1 = 0 then .left else if fieldNat fs 15 1 = 1 then .right else .low
  diverging := if fieldNat fs 19 1 = 0 then none else some (fieldInt fs 20 2, fieldInt fs 22 2)
  link := linkAt fs 16

/-- R58: the fields of a SEGMENT-V lie within their ranges. -/
def SegmentVGood (fs : List Byte) : Prop :=
  (500 ≤ (fieldNat fs 3 4 : Int) ∧ (fieldNat fs 3 4 : Int) ≤ 1000000) ∧
  (-2000 ≤ fieldInt fs 7 2 ∧ fieldInt fs 7 2 ≤ 2000) ∧ fieldNat fs 9 2 ≤ 1500 ∧ LinkGood fs 11

/-- R58, R191: the SEGMENT-V that its bytes hold. -/
def segmentVAt (fs : List Byte) : SegmentV where
  length := fieldNat fs 3 4
  curvature := fieldInt fs 7 2
  baseLift := fieldNat fs 9 2
  link := linkAt fs 11

theorem railOfCode_some {n : Nat} (h : n ≤ 2) :
    railOfCode n = some (if n = 0 then .left else if n = 1 then .right else .low) := by
  rcases n with _ | _ | _ | n
  · rfl
  · rfl
  · rfl
  · omega

theorem railOfCode_le {n : Nat} {r : ReferenceRail} (h : railOfCode n = some r) : n ≤ 2 := by
  rw [(railOfCode_iff n r).1 h]
  cases r <;> decide

theorem segmentHOf_some {fs : List Byte} (h : SegmentHGood fs) : segmentHOf fs = some (segmentHAt fs) := by
  obtain ⟨hlength, hk0, hk1, hc0, hc1, hrail, hlink, hdiv⟩ := h
  have hpresent : presence (fieldNat fs 19 1) (fieldInt fs 20 2, fieldInt fs 22 2) =
      some (if fieldNat fs 19 1 = 0 then none else some (fieldInt fs 20 2, fieldInt fs 22 2)) :=
    (presence_some_iff _ _ _).2 ⟨hdiv.imp id And.left, rfl⟩
  simp only [segmentHOf, railOfCode_some hrail, linkField_some hlink, hpresent, (within_iff _ _ _).2 hlength,
    (within_iff _ _ _).2 hk0, (within_iff _ _ _).2 hk1, (within_iff _ _ _).2 hc0, (within_iff _ _ _).2 hc1, Bool.true_and]
  refine if_pos ?_
  by_cases h0 : fieldNat fs 19 1 = 0
  · rw [if_pos h0]
  · rw [if_neg h0]
    obtain ⟨-, hx0, hx1⟩ := hdiv.resolve_left h0
    simp only [(within_iff _ _ _).2 hx0, (within_iff _ _ _).2 hx1, Bool.true_and]

theorem segmentHOf_good {fs : List Byte} {s : SegmentH} (h : segmentHOf fs = some s) : SegmentHGood fs := by
  unfold segmentHOf at h
  simp only at h
  split at h
  · next rail link diverging hrail hlink hdiv =>
    obtain ⟨hcode, rfl⟩ := (presence_some_iff _ _ _).1 hdiv
    obtain ⟨hall, -⟩ := Option.ite_none_right_eq_some.1 h
    simp only [Bool.and_eq_true, within_iff] at hall
    obtain ⟨⟨⟨⟨⟨hlength, hk0⟩, hk1⟩, hc0⟩, hc1⟩, hx⟩ := hall
    refine ⟨hlength, hk0, hk1, hc0, hc1, railOfCode_le hrail, ((linkField_some_iff _ _ _).1 hlink).1, ?_⟩
    by_cases h0 : fieldNat fs 19 1 = 0
    · exact .inl h0
    · rw [if_neg h0] at hx
      simp only [Bool.and_eq_true, within_iff] at hx
      exact .inr ⟨hcode.resolve_left h0, hx⟩
  · cases h

theorem segmentVOf_some {fs : List Byte} (h : SegmentVGood fs) : segmentVOf fs = some (segmentVAt fs) := by
  obtain ⟨hlength, hk, hbase, hlink⟩ := h
  have hbase : within 0 1500 (fieldNat fs 9 2) = true := (within_iff _ _ _).2 ⟨by omega, by omega⟩
  simp only [segmentVOf, linkField_some hlink, (within_iff _ _ _).2 hlength, (within_iff _ _ _).2 hk, hbase, Bool.true_and]
  rfl

theorem segmentVOf_good {fs : List Byte} {s : SegmentV} (h : segmentVOf fs = some s) : SegmentVGood fs := by
  unfold segmentVOf at h
  simp only at h
  split at h
  · next link hlink =>
    obtain ⟨hall, -⟩ := Option.ite_none_right_eq_some.1 h
    simp only [Bool.and_eq_true, within_iff] at hall
    obtain ⟨⟨hlength, hk⟩, hbase⟩ := hall
    exact ⟨hlength, hk, by omega, ((linkField_some_iff _ _ _).1 hlink).1⟩
  · cases h

/-! ### The descriptors in bytes (R59, R191) -/

theorem descriptorOf_segmentH {fs : List Byte} (h : SegmentHGood fs) : descriptorOf fs 1 = some (.segmentH (segmentHAt fs)) := by
  rw [descriptorOf, segmentHOf_some h]
  rfl

theorem descriptorOf_segmentV {fs : List Byte} (h : SegmentVGood fs) : descriptorOf fs 2 = some (.segmentV (segmentVAt fs)) := by
  rw [descriptorOf, segmentVOf_some h]
  rfl

theorem descriptorOf_branch {fs : List Byte} (h : fieldNat fs 3 2 ≤ 511) :
    descriptorOf fs 3 = some (.branch (fieldNat fs 3 2)) :=
  if_pos ((slotNumber_iff _).2 h)

theorem descriptorOf_call {fs : List Byte} (ht : fieldNat fs 3 2 ≤ 511) (h1 : fieldNat fs 5 1 = 1) (hl : fieldNat fs 6 2 ≤ 511) :
    descriptorOf fs 4 = some (.call (fieldNat fs 3 2) (fieldNat fs 6 2)) := by
  have hlink : linkField fs 5 = some (some (fieldNat fs 6 2)) :=
    (linkField_some_iff _ _ _).2 ⟨.inr ⟨h1, hl⟩, by simp [linkAt, h1]⟩
  simp only [descriptorOf, hlink, (slotNumber_iff _).2 ht, if_true]

theorem descriptorOf_repeat {fs : List Byte} (hc : 1 ≤ fieldNat fs 3 1) (h1 : fieldNat fs 4 1 = 1) (hl : fieldNat fs 5 2 ≤ 511) :
    descriptorOf fs 6 = some (.repeatRun (fieldNat fs 3 1) (fieldNat fs 5 2)) := by
  have hlink : linkField fs 4 = some (some (fieldNat fs 5 2)) :=
    (linkField_some_iff _ _ _).2 ⟨.inr ⟨h1, hl⟩, by simp [linkAt, h1]⟩
  simp only [descriptorOf, hlink, if_pos hc]

/-- R59: a link that must be present. -/
theorem linkField_present {fs : List Byte} {at_ k : Nat} (h : linkField fs at_ = some (some k)) :
    fieldNat fs at_ 1 = 1 ∧ fieldNat fs (at_ + 1) 2 ≤ 511 ∧ k = fieldNat fs (at_ + 1) 2 := by
  obtain ⟨hgood, hk⟩ := (linkField_some_iff _ _ _).1 h
  unfold linkAt at hk
  split at hk
  · cases hk
  · next h0 =>
    obtain ⟨h1, hslot⟩ := hgood.resolve_left h0
    exact ⟨h1, hslot, Option.some.inj hk⟩

/-- R57 to R60: which bytes give a descriptor, kind by kind. -/
def DescriptorGood (fs : List Byte) : Nat → Prop
  | 1 => SegmentHGood fs
  | 2 => SegmentVGood fs
  | 3 => fieldNat fs 3 2 ≤ 511
  | 4 => fieldNat fs 3 2 ≤ 511 ∧ fieldNat fs 5 1 = 1 ∧ fieldNat fs 6 2 ≤ 511
  | 5 => True
  | 6 => 1 ≤ fieldNat fs 3 1 ∧ fieldNat fs 4 1 = 1 ∧ fieldNat fs 5 2 ≤ 511
  | _ => False

/-- R57 to R60: a descriptor that is accepted has good bytes, lies within its ranges and carries its kind code. -/
theorem descriptorOf_good {fs : List Byte} {kind : Nat} {d : Descriptor} (h : descriptorOf fs kind = some d) :
    DescriptorGood fs kind ∧ DescriptorWritable d ∧ (descriptorFields d).head? = some (byte kind) := by
  unfold descriptorOf at h
  split at h
  · obtain ⟨s, hs, rfl⟩ := Option.map_eq_some_iff.1 h
    have hgood := segmentHOf_good hs
    rw [segmentHOf_some hgood] at hs
    cases hs
    obtain ⟨hlength, hk0, hk1, hc0, hc1, -, hlink, hdiv⟩ := id hgood
    refine ⟨hgood, ⟨hlength.1, hlength.2, hk0.1, hk0.2, hk1.1, hk1.2, hc0.1, hc0.2, hc1.1, hc1.2, fun x y hxy => ?_,
      linkAt_writable hlink⟩, rfl⟩
    simp only [segmentHAt] at hxy
    split at hxy
    · cases hxy
    · next h0 =>
      cases hxy
      obtain ⟨-, hx, hy⟩ := hdiv.resolve_left h0
      exact ⟨hx.1, hx.2, hy.1, hy.2⟩
  · obtain ⟨s, hs, rfl⟩ := Option.map_eq_some_iff.1 h
    have hgood := segmentVOf_good hs
    rw [segmentVOf_some hgood] at hs
    cases hs
    obtain ⟨hlength, hk, hbase, hlink⟩ := id hgood
    exact ⟨hgood, ⟨hlength.1, hlength.2, hk.1, hk.2, Int.natCast_nonneg _,
      show ((fieldNat fs 9 2 : Nat) : Int) ≤ 1500 by exact_mod_cast hbase, linkAt_writable hlink⟩, rfl⟩
  · obtain ⟨ht, hd⟩ := Option.ite_none_right_eq_some.1 h
    cases hd
    exact ⟨(slotNumber_iff _).1 ht, (slotNumber_iff _).1 ht, rfl⟩
  · simp only at h
    split at h
    · next link hlink =>
      obtain ⟨ht, hd⟩ := Option.ite_none_right_eq_some.1 h
      cases hd
      obtain ⟨h1, hslot, rfl⟩ := linkField_present hlink
      have ht := (slotNumber_iff _).1 ht
      exact ⟨⟨ht, h1, hslot⟩, ⟨ht, hslot⟩, rfl⟩
    · cases h
  · cases h
    exact ⟨trivial, trivial, rfl⟩
  · simp only at h
    split at h
    · next link hlink =>
      obtain ⟨hc, hd⟩ := Option.ite_none_right_eq_some.1 h
      cases hd
      obtain ⟨h1, hslot, rfl⟩ := linkField_present hlink
      exact ⟨⟨hc, h1, hslot⟩, ⟨hc, fieldNat_byte_le fs 3, hslot⟩, rfl⟩
    · cases h
  · cases h

theorem descriptorOf_none {fs : List Byte} {kind : Nat} (h : ¬ DescriptorGood fs kind) : descriptorOf fs kind = none := by
  cases hd : descriptorOf fs kind with
  | none => rfl
  | some d => exact absurd (descriptorOf_good hd).1 h

/-! ### A descriptor written in bytes reads back (R191) -/

theorem readInt_writeTwo {x : Int} (hlow : -32768 ≤ x) (hhigh : x < 32768) : readInt (writeInt 2 x) = x :=
  readInt_writeInt (by norm_num) (by norm_num; omega) (by norm_num; omega)

theorem readNat_writeTwo {n : Nat} (h : n < 32768) : readNat (writeInt 2 n) = n := by
  have := readNat_writeInt_of_nonneg (n := 2) (x := n) (by norm_num) (by omega) (by norm_num; omega)
  exact_mod_cast this

theorem readNat_byte {n : Nat} (h : n < 256) : readNat [byte n] = n := by
  simp only [readNat, byte, BitVec.toNat_ofNat]
  omega

theorem readNat_writeFour {x : Int} (h0 : 0 ≤ x) (h : x ≤ 1000000) : (readNat (writeInt 4 x) : Int) = x :=
  readNat_writeInt_of_nonneg (by norm_num) h0 (by norm_num; omega)

/-- R60, R191: an optional link reads back from its three bytes. -/
theorem link_readsBack {fs : List Byte} {at_ : Nat} {l : Option Nat} (hw : LinkWritable l)
    (h : fieldBytes fs at_ 3 = writeOptional 2 (linkInt l)) : LinkGood fs at_ ∧ linkAt fs at_ = l := by
  have hcode : fieldBytes fs at_ 1 = (writeOptional 2 (linkInt l)).take 1 := by
    rw [← h]
    simp [fieldBytes, List.take_take]
  have hslot : fieldBytes fs (at_ + 1) 2 = (writeOptional 2 (linkInt l)).drop 1 := by
    rw [← h]
    simp [fieldBytes, List.drop_take, List.drop_drop]
  cases l with
  | none =>
    have h0 : fieldNat fs at_ 1 = 0 := by rw [fieldNat, hcode]; rfl
    exact ⟨.inl h0, if_pos h0⟩
  | some k =>
    have hk : k ≤ 511 := hw k rfl
    have h1 : fieldNat fs at_ 1 = 1 := by rw [fieldNat, hcode]; rfl
    have h2 : fieldNat fs (at_ + 1) 2 = k := by rw [fieldNat, hslot]; exact readNat_writeTwo (by omega)
    exact ⟨.inr ⟨h1, by omega⟩, by rw [linkAt, if_neg (by omega), h2]⟩

section
variable (x y : Byte)

theorem segmentH_readsBack {s : SegmentH} (hw : DescriptorWritable (.segmentH s)) :
    let fs := x :: y :: descriptorFields (.segmentH s)
    SegmentHGood fs ∧ segmentHAt fs = s := by
  intro fs
  obtain ⟨length, k0, k1, c0, c1, rail, diverging, link⟩ := s
  obtain ⟨hl, hl', hk0, hk0', hk1, hk1', hc0, hc0', hc1, hc1', hdiv, hlink⟩ := hw
  simp only at hl hl' hk0 hk0' hk1 hk1' hc0 hc0' hc1 hc1' hdiv hlink
  have hlength : (fieldNat fs 3 4 : Int) = length := readNat_writeFour (x := length) (by omega) hl'
  have hk0v : fieldInt fs 7 2 = k0 := readInt_writeTwo (x := k0) (by omega) (by omega)
  have hk1v : fieldInt fs 9 2 = k1 := readInt_writeTwo (x := k1) (by omega) (by omega)
  have hc0v : fieldInt fs 11 2 = c0 := readInt_writeTwo (x := c0) (by omega) (by omega)
  have hc1v : fieldInt fs 13 2 = c1 := readInt_writeTwo (x := c1) (by omega) (by omega)
  have hrail : fieldNat fs 15 1 = rail.code := by cases rail <;> rfl
  obtain ⟨hlinkGood, hlinkAt⟩ := link_readsBack (fs := fs) (at_ := 16) hlink (by cases link <;> rfl)
  have hcode : fieldNat fs 19 1 = bit diverging.isSome := by cases link <;> cases diverging <;> rfl
  have hreference : (if fieldNat fs 15 1 = 0 then ReferenceRail.left else if fieldNat fs 15 1 = 1 then .right else .low) = rail := by
    rw [hrail]
    cases rail <;> rfl
  have hrailLe : fieldNat fs 15 1 ≤ 2 := by
    rw [hrail]
    cases rail <;> decide
  have hgood (hx : fieldNat fs 19 1 = 0 ∨ fieldNat fs 19 1 = 1 ∧ (-2000 ≤ fieldInt fs 20 2 ∧ fieldInt fs 20 2 ≤ 6000) ∧
      (-2000 ≤ fieldInt fs 22 2 ∧ fieldInt fs 22 2 ≤ 6000)) : SegmentHGood fs := by
    refine ⟨?_, ?_, ?_, ?_, ?_, hrailLe, hlinkGood, hx⟩ <;> omega
  have hat (hx : (if fieldNat fs 19 1 = 0 then none else some (fieldInt fs 20 2, fieldInt fs 22 2)) = diverging) :
      segmentHAt fs = ⟨length, k0, k1, c0, c1, rail, diverging, link⟩ := by
    rw [segmentHAt, hlength, hk0v, hk1v, hc0v, hc1v, hreference, hlinkAt, hx]
  cases diverging with
  | none => exact ⟨hgood (.inl hcode), hat (if_pos hcode)⟩
  | some d =>
    obtain ⟨d0, d1⟩ := d
    obtain ⟨hd0, hd0', hd1, hd1'⟩ := hdiv d0 d1 rfl
    have hd0v : fieldInt fs 20 2 = d0 := by
      cases link <;> exact readInt_writeTwo (x := d0) (by omega) (by omega)
    have hd1v : fieldInt fs 22 2 = d1 := by
      cases link <;> exact readInt_writeTwo (x := d1) (by omega) (by omega)
    have h1 : fieldNat fs 19 1 = 1 := hcode
    exact ⟨hgood (.inr ⟨h1, by omega, by omega⟩), hat (by rw [if_neg (by omega), hd0v, hd1v])⟩

theorem segmentV_readsBack {s : SegmentV} (hw : DescriptorWritable (.segmentV s)) :
    let fs := x :: y :: descriptorFields (.segmentV s)
    SegmentVGood fs ∧ segmentVAt fs = s := by
  intro fs
  obtain ⟨length, k, base, link⟩ := s
  obtain ⟨hl, hl', hk, hk', hb, hb', hlink⟩ := hw
  simp only at hl hl' hk hk' hb hb' hlink
  have hlength : (fieldNat fs 3 4 : Int) = length := readNat_writeFour (x := length) (by omega) hl'
  have hkv : fieldInt fs 7 2 = k := readInt_writeTwo (x := k) (by omega) (by omega)
  have hbv : (fieldNat fs 9 2 : Int) = base := readNat_writeInt_of_nonneg (n := 2) (by norm_num) hb (by norm_num; omega)
  obtain ⟨hlinkGood, hlinkAt⟩ := link_readsBack (fs := fs) (at_ := 11) hlink (by cases link <;> rfl)
  refine ⟨⟨by omega, by omega, by omega, hlinkGood⟩, ?_⟩
  rw [segmentVAt, hlength, hkv, hbv, hlinkAt]

/-- R63, R191: the bytes of a writable descriptor have the length of their kind and read back as the descriptor. -/
theorem descriptor_readsBack {d : Descriptor} (hw : DescriptorWritable d) :
    let fs := x :: y :: descriptorFields d
    ∃ kind, fieldNat fs 2 1 = kind ∧ descriptorOf fs kind = some d ∧ planWriteLength fs kind = some fs.length := by
  intro fs
  cases d with
  | segmentH s =>
    obtain ⟨hgood, hat⟩ := segmentH_readsBack x y hw
    refine ⟨1, rfl, (descriptorOf_segmentH hgood).trans (by rw [hat]), ?_⟩
    obtain ⟨_, _, _, _, _, _, diverging, link⟩ := s
    cases link <;> cases diverging <;> rfl
  | segmentV s =>
    obtain ⟨hgood, hat⟩ := segmentV_readsBack x y hw
    refine ⟨2, rfl, (descriptorOf_segmentV hgood).trans (by rw [hat]), ?_⟩
    obtain ⟨_, _, _, link⟩ := s
    cases link <;> rfl
  | branch target =>
    have ht : target ≤ 511 := hw
    have hv : fieldNat fs 3 2 = target := readNat_writeTwo (by omega)
    exact ⟨3, rfl, (descriptorOf_branch (by omega)).trans (by rw [hv]), rfl⟩
  | call target link =>
    obtain ⟨ht, hl⟩ := hw
    have hv : fieldNat fs 3 2 = target := readNat_writeTwo (by omega)
    have hlv : fieldNat fs 6 2 = link := readNat_writeTwo (by omega)
    exact ⟨4, rfl, (descriptorOf_call (by omega) rfl (by omega)).trans (by rw [hv, hlv]), rfl⟩
  | ret => exact ⟨5, rfl, rfl, rfl⟩
  | repeatRun count link =>
    obtain ⟨hc, hc', hl⟩ := hw
    have hv : fieldNat fs 3 1 = count := readNat_byte (by omega)
    have hlv : fieldNat fs 5 2 = link := readNat_writeTwo (by omega)
    exact ⟨6, rfl, (descriptorOf_repeat (by omega) rfl (by omega)).trans (by rw [hv, hlv]), rfl⟩

end

/-! ### PLAN WRITE (R63, R64) -/

/-- R63: the fields have a length that is not that of their kind. -/
def BadPlanLength (fs : List Byte) (kind F : Nat) : Prop :=
  (kind = 1 ∧ (F ≠ 20 ∧ F ≠ 24 ∨ F = 20 ∧ fieldNat fs 19 1 = 1 ∨ F = 24 ∧ fieldNat fs 19 1 ≠ 1)) ∨
    (kind = 2 ∧ F ≠ 14) ∨ (kind = 3 ∧ F ≠ 5) ∨ (kind = 4 ∧ F ≠ 8) ∨ (kind = 5 ∧ F ≠ 3) ∨ (kind = 6 ∧ F ≠ 7)

theorem planWriteLength_none {fs : List Byte} {kind : Nat} (h : kind = 0 ∨ 6 < kind) : planWriteLength fs kind = none := by
  rcases h with rfl | h
  · rfl
  · match kind, h with
    | n + 7, _ => rfl

theorem planWriteLength_some {fs : List Byte} {kind : Nat} (hlow : 1 ≤ kind) (hhigh : kind ≤ 6) :
    ∃ len, planWriteLength fs kind = some len ∧ (fs.length ≠ len ↔ BadPlanLength fs kind fs.length) := by
  unfold BadPlanLength
  match kind, hlow, hhigh with
  | 1, _, _ =>
    refine ⟨_, rfl, ?_⟩
    split_ifs <;> omega
  | 2, _, _ => exact ⟨_, rfl, by omega⟩
  | 3, _, _ => exact ⟨_, rfl, by omega⟩
  | 4, _, _ => exact ⟨_, rfl, by omega⟩
  | 5, _, _ => exact ⟨_, rfl, by omega⟩
  | 6, _, _ => exact ⟨_, rfl, by omega⟩

section
variable {s : State} {r : Request} {rest : List Request} (h : AsksData s r rest 16)
include h

/-- R63: a PLAN WRITE that reaches its kind code, with its slot in range. -/
theorem exec_planWrite_kind (hF : 3 ≤ r.fieldLength) (hslot : fieldNat r.fields 0 2 ≤ 511) {len : Nat}
    (hlen : planWriteLength r.fields (fieldNat r.fields 2 1) = some len) :
    exec .planWrite s = .next (s.withPart (repliedPart s.part.store.working.partNode r
      (if r.fields.length ≠ len then .refuse (found s.part r rest) .badLength
      else
        match descriptorOf r.fields (fieldNat r.fields 2 1) with
        | none => .refuse (found s.part r rest) .badField
        | some desc =>
          if (slotAt s.part.plan (fieldNat r.fields 0 2)).state = .inUse then .refuse (found s.part r rest) .slotBusy
          else .ok { found s.part r rest with
            plan := setSlot s.part.plan (fieldNat r.fields 0 2) { state := .loaded, code := none, contents := some desc } }))) := by
  have hlength := fields_length h.1
  refine (dataOpen_taken h rfl).trans (block_answers ((if_neg (by omega)).trans ((if_neg ?_).trans
    ((if_neg (by omega)).trans ?_))))
  · rw [Bool.not_eq_false]
    exact (slotNumber_iff _).2 hslot
  · rw [hlen]
    rfl

/-- R63: a PLAN WRITE whose fields have the length of their kind. -/
theorem exec_planWrite_whole (hF : 3 ≤ r.fieldLength) (hslot : fieldNat r.fields 0 2 ≤ 511)
    (hlen : planWriteLength r.fields (fieldNat r.fields 2 1) = some r.fields.length) :
    (descriptorOf r.fields (fieldNat r.fields 2 1) = none → exec .planWrite s = .next (refusedWith s r rest 4)) ∧
    (∀ d, descriptorOf r.fields (fieldNat r.fields 2 1) = some d →
      ((slotAt s.part.plan (fieldNat r.fields 0 2)).state = .inUse → exec .planWrite s = .next (refusedWith s r rest 10)) ∧
      ((slotAt s.part.plan (fieldNat r.fields 0 2)).state ≠ .inUse → exec .planWrite s = .next (replied s
        { found s.part r rest with
          plan := setSlot s.part.plan (fieldNat r.fields 0 2) { state := .loaded, code := none, contents := some d } } r 0 []))) := by
  have hexec := exec_planWrite_kind h hF hslot hlen
  rw [if_neg (not_not.2 rfl)] at hexec
  refine ⟨fun hnone => ?_, fun d hd => ⟨fun hu => ?_, fun hu => ?_⟩⟩
  · rw [hnone] at hexec
    exact hexec.trans (block_refused (st := .badField) rfl)
  · rw [hd] at hexec
    exact hexec.trans (block_refused (st := .slotBusy) (if_pos hu))
  · rw [hd] at hexec
    exact hexec.trans (block_ok (if_neg hu))

end

/-- R191: the bytes of a descriptor, kind by kind. -/
theorem descriptorFields_eq (d : Descriptor) :
    let link := fun (l : Option Nat) => match l with | none => [0, 0, 0] | some k => (1 : Byte) :: writeInt 2 k
    descriptorFields d = match d with
      | .segmentH s => 1 :: (writeInt 4 s.length ++ writeInt 2 s.curvatureStart ++ writeInt 2 s.curvatureEnd ++
          writeInt 2 s.cantStart ++ writeInt 2 s.cantEnd ++
          [match s.reference with | .left => 0 | .right => 1 | .low => 2] ++ link s.link ++
          match s.diverging with | none => [0] | some (x, y) => 1 :: (writeInt 2 x ++ writeInt 2 y))
      | .segmentV s => 2 :: (writeInt 4 s.length ++ writeInt 2 s.curvature ++ writeInt 2 s.baseLift ++ link s.link)
      | .branch target => 3 :: writeInt 2 target
      | .call target next => 4 :: (writeInt 2 target ++ link (some next))
      | .ret => [5]
      | .repeatRun count next => 6 :: byte count :: link (some next) := by
  intro link
  cases d with
  | segmentH s =>
    obtain ⟨_, _, _, _, _, rail, diverging, l⟩ := s
    cases l <;> cases rail <;> cases diverging <;> rfl
  | segmentV s =>
    obtain ⟨_, _, _, l⟩ := s
    cases l <;> rfl
  | branch | call | ret | repeatRun => rfl

/-- Settles O29: the order of the refusals, the fields kind by kind, and the bytes of a descriptor. -/
theorem planWriteStoresDescriptorsInRange : Obligations.PlanWriteStoresDescriptorsInRange := by
  unfold Obligations.PlanWriteStoresDescriptorsInRange
  refine ⟨fun s r rest h => ?_, fun fs => ?_, fun fs kind d hd => ?_, fun d => ?_⟩
  · intro slot kind F p badLength
    have hlength : r.fields.length = F := fields_length h.1
    refine ⟨fun d hw hslot hfields => ?_, fun hF => ?_, fun hF hslot => ?_, fun hF hslot => ?_, fun hF hkind => ?_,
      fun hF hslot hbad => ?_, fun hF hslot hlow hhigh hgood => ?_⟩
    · have hfs : r.fields = BitVec.ofInt 8 slot :: BitVec.ofInt 8 (slot / 256) :: descriptorFields d := hfields
      obtain ⟨k, hk, hd, hlen⟩ := descriptor_readsBack (BitVec.ofInt 8 slot) (BitVec.ofInt 8 (slot / 256)) hw
      rw [← hfs] at hk hd hlen
      subst hk
      have hF : 3 ≤ r.fieldLength := by
        rw [← fields_length h.1, hfs]
        cases d <;> simp [descriptorFields]
      obtain ⟨-, hdesc⟩ := exec_planWrite_whole h hF hslot hlen
      exact ⟨(hdesc d hd).2, (hdesc d hd).1⟩
    · exact (dataOpen_taken h rfl).trans (block_refused (st := .badLength) (if_pos (hlength.trans_lt hF)))
    · refine (dataOpen_taken h rfl).trans (block_refused (st := .badField) ((if_neg (not_lt.2 (hlength ▸ hF))).trans (if_pos ?_)))
      rw [← Bool.not_eq_true, slotNumber_iff]
      exact not_le.2 hslot
    · refine (dataOpen_taken h rfl).trans (block_refused (st := .badLength) ((if_neg (by omega)).trans ((if_neg ?_).trans
        (if_pos (by omega)))))
      rw [Bool.not_eq_false]
      exact (slotNumber_iff _).2 hslot
    · refine (dataOpen_taken h rfl).trans (block_refused (st := .badField) ((if_neg (by omega)).trans ?_))
      by_cases hslot : slotNumber (fieldNat r.fields 0 2) = false
      · exact if_pos hslot
      · refine (if_neg hslot).trans ((if_neg (by omega)).trans ?_)
        rw [planWriteLength_none hkind]
    · have hlow : 1 ≤ kind := by
        simp only [badLength] at hbad
        omega
      have hhigh : kind ≤ 6 := by
        simp only [badLength] at hbad
        omega
      obtain ⟨len, hlen, hiff⟩ := planWriteLength_some (fs := r.fields) hlow hhigh
      rw [hlength] at hiff
      exact (exec_planWrite_kind h hF hslot hlen).trans
        (block_refused (st := .badLength) (if_pos (hlength ▸ hiff.2 hbad)))
    · obtain ⟨len, hlen, hiff⟩ := planWriteLength_some (fs := r.fields) hlow hhigh
      rw [hlength] at hiff
      have hwhole : len = r.fields.length := by
        rw [hlength]
        exact (not_not.1 fun hne => hgood (hiff.1 hne)).symm
      exact exec_planWrite_whole h hF hslot (hwhole ▸ hlen)
  · intro nat int between linkGood linkAt' goodH goodV goodCall goodRepeat
    exact ⟨fun h => descriptorOf_segmentH h, fun h => descriptorOf_none (kind := 1) h, fun h => descriptorOf_segmentV h,
      fun h => descriptorOf_none (kind := 2) h, descriptorOf_branch, fun h => descriptorOf_none (kind := 3) (not_le.2 h),
      fun h => descriptorOf_call h.1 h.2.1 h.2.2, fun h => descriptorOf_none (kind := 4) h, rfl,
      fun h => descriptorOf_repeat h.1 h.2.1 h.2.2, fun h => descriptorOf_none (kind := 6) h⟩
  · exact (descriptorOf_good hd).2
  · exact descriptorFields_eq d

/-! ### PLAN LINK and PLAN CLEAR (R65, R67) -/

theorem relink_flow {d : Descriptor} (h : isFlow d = true) (link : Option Nat) : relink link d = none := by
  cases d with
  | segmentH | segmentV => cases h
  | branch | call | ret | repeatRun => rfl

/-- R67: the range holds an IN_USE slot. -/
theorem rangeInUse_of {plan : Table Slot} {first last k : Nat} (hlow : first ≤ k) (hhigh : k ≤ last)
    (h : (slotAt plan k).state = .inUse) : rangeInUse plan first last = true := by
  rw [← Bool.not_eq_false]
  exact fun hnone => not_inUse_of_rangeInUse hnone ⟨hlow, hhigh⟩ h

/-- In a canonical table, every entry listed is the one that its number reads as. -/
theorem Table.read_of_mem {α : Type} [DecidableEq α] {dflt : α} {t : Table α} (hwf : Table.wf dflt t = true)
    {x : Nat × α} (hx : x ∈ t) : Table.read dflt t x.1 = x.2 := by
  induction t with
  | nil => cases hx
  | cons y t ih =>
    obtain ⟨i, w⟩ := y
    obtain ⟨-, habove, hrest⟩ := (Table.wf_cons dflt i w t).1 hwf
    rcases List.mem_cons.1 hx with rfl | hx
    · exact if_pos rfl
    · exact (if_neg (habove x hx).ne).trans (ih hrest hx)

theorem exists_of_rangeInUse {plan : Table Slot} {first last : Nat} (hwf : Table.wf emptySlot plan = true)
    (h : rangeInUse plan first last = true) : ∃ k, first ≤ k ∧ k ≤ last ∧ (slotAt plan k).state = .inUse := by
  obtain ⟨x, hx, hall⟩ := List.any_eq_true.1 h
  simp only [Bool.and_eq_true, decide_eq_true_eq] at hall
  obtain ⟨⟨hlow, hhigh⟩, huse⟩ := hall
  exact ⟨x.1, hlow, hhigh, (congrArg Slot.state (Table.read_of_mem hwf hx)).trans huse⟩

/-- Settles O30: the fields first, then the slots. -/
theorem planLinkAndClear : Obligations.PlanLinkAndClear := by
  unfold Obligations.PlanLinkAndClear
  refine ⟨fun s r rest h hf => ?_, fun s r rest h hf hwf => ?_⟩
  · intro slot code n old link good
    have hgoodIff : good ↔ slot ≤ 511 ∧ LinkGood r.fields 2 := Iff.rfl
    have hexec (hgood : good) : exec .planLink s = .next (s.withPart (repliedPart s.part.store.working.partNode r
        (match old.contents.bind (relink link) with
        | none => .refuse (found s.part r rest) .badState
        | some desc => .ok ((found s.part r rest).withSlot slot { old with contents := some desc })))) := by
      refine (data_taken h rfl hf).trans (block_answers ?_)
      simp only [show linkField r.fields 2 = some link from linkField_some hgood.2]
      refine if_neg ?_
      rw [Bool.not_eq_false]
      exact (slotNumber_iff _).2 hgood.1
    refine ⟨fun hbad => ?_, fun hgood hflow => ?_, fun d hgood hd => ?_, fun d hgood hd => ?_⟩
    · refine (data_taken h rfl hf).trans (block_refused (st := .badField) ?_)
      by_cases hlink : LinkGood r.fields 2
      · simp only [linkField_some hlink]
        refine if_pos ?_
        rw [← Bool.not_eq_true, slotNumber_iff]
        exact fun hslot => hbad ⟨hslot, hlink⟩
      · simp only [linkField_none hlink]
    · refine (hexec hgood).trans (block_refused (st := .badState) ?_)
      have hnone : old.contents.bind (relink link) = none := by
        cases hd : old.contents with
        | none => rfl
        | some d => exact relink_flow (hflow d hd) link
      rw [hnone]
    · refine (hexec hgood).trans (block_ok ?_)
      rw [hd]
      rfl
    · refine (hexec hgood).trans (block_ok ?_)
      rw [hd]
      rfl
  · intro first last good busy
    have hgoodIff : ¬ (slotNumber first = false ∨ slotNumber last = false ∨ last < first) ↔ good := by
      simp only [← Bool.not_eq_true, slotNumber_iff, good]
      omega
    have hbusy : rangeInUse s.part.plan first last = true ↔ busy :=
      ⟨exists_of_rangeInUse hwf, fun ⟨k, hlow, hhigh, hu⟩ => rangeInUse_of hlow hhigh hu⟩
    refine ⟨fun hbad => ?_, fun hgood hb => ?_, fun hgood hb => ⟨clearSlots s.part.plan first last, ?_, fun k =>
      slotAt_clearSlots first last k hwf⟩⟩
    · exact (data_taken h rfl hf).trans (block_refused (st := .badField) (if_pos (not_not.1 fun hno => hbad (hgoodIff.1 hno))))
    · exact (data_taken h rfl hf).trans (block_refused (st := .slotBusy)
        ((if_neg (hgoodIff.2 hgood)).trans (if_pos (hbusy.2 hb))))
    · exact (data_taken h rfl hf).trans (block_ok
        ((if_neg (hgoodIff.2 hgood)).trans (if_neg fun hu => hb (hbusy.1 hu))))

end Sys2Proof.Machine
end

section
/-! PROOF. The fetch, the contexts' requests and advances, and a segment's end (R61, R73 to R93). -/

namespace Sys2Proof.Machine
open Sys2Proof Sys2Proof.Safety

section
variable {p : Part} {i : ContextId} {w : Walk} {k : Nat} {shadow : Descriptor} {dead : DeadCode}

/-- R81, R93: the part and the report when the context dies, with every part of the context. -/
theorem contextDies_eq (c : Context) (held : Option SegmentRecord) :
    contextDies p i c w dead k held = handEvent (({ p with plan := w.plan } : Part).setCtx i
      { state := .dead, dead := some (dead, k), armed := none, current := held, previous := held,
        repeatLeft := w.repeatLeft, stack := w.stack }) (.planState i .dead (some dead) (some k)) := by
  rw [contextDies, handPlanState, Part.setWalk, Part.setCtx_ctx_self]
  rfl

theorem handEvent_ctx (e : Event) (j : ContextId) : (handEvent p e).ctx j = p.ctx j :=
  ctx_of_plans (plans_of_ground (handEvent_ground _ e)) j

/-- R93: the report of a context whose parts have just been set. -/
theorem handPlanState_setCtx (c : Context) (slot : Option Nat) :
    handPlanState (p.setCtx i c) i slot = handEvent (p.setCtx i c) (.planState i c.state (c.dead.map (·.1)) slot) := by
  rw [handPlanState, Part.setCtx_ctx_self]

/-- R74, R75: a start whose fetch ends at a segment. -/
theorem startContext_reached {first : Nat} (start : Int) (hdead : (p.ctx i).dead = none)
    (h : fetch i { plan := p.plan, stack := (p.ctx i).stack, repeatLeft := (p.ctx i).repeatLeft } first = (w, .reached k shadow)) :
    startContext p i first start = catchUp (handEvent (({ p with plan := w.plan } : Part).setCtx i
      { state := .running, dead := none, armed := none, previous := none, repeatLeft := w.repeatLeft, stack := w.stack,
        current := some { slot := k, shadow := shadow, start := start } }) (.planState i .running none (some k))) i := by
  simp only [startContext, Part.walk, h, Part.setWalk, handPlanState_setCtx, hdead]
  rfl

theorem startContext_died {first : Nat} (start : Int)
    (h : fetch i { plan := p.plan, stack := (p.ctx i).stack, repeatLeft := (p.ctx i).repeatLeft } first = (w, .died dead k)) :
    startContext p i first start = handEvent (({ p with plan := w.plan } : Part).setCtx i
      { state := .dead, dead := some (dead, k), armed := none, current := none, previous := none,
        repeatLeft := w.repeatLeft, stack := w.stack }) (.planState i .dead (some dead) (some k)) := by
  simp only [startContext, Part.walk, h, contextDies_eq]

/-- R75: the context goes ARMED. -/
theorem armContext_eq {first : Nat} (start : Int) (hdead : (p.ctx i).dead = none) :
    armContext p i first start = handEvent (p.setCtx i { p.ctx i with state := .armed, armed := some (first, start) })
      (.planState i .armed none (some first)) := by
  rw [armContext, handPlanState_setCtx, hdead]
  rfl

/-- R74, R75: a context with no start given starts at C, and one with a start does so when C has reached it. -/
theorem runContext_starts {first : Nat} {o : Option Int} (h : aheadBy p.travel.direction (o.getD (chainageC p)) (chainageC p) ≤ 0) :
    runContext p i first o = startContext p i first (o.getD (chainageC p)) := by
  cases o with
  | none => rfl
  | some x => exact if_neg (not_lt.2 h)

theorem runContext_arms {first : Nat} {o : Option Int} (h : 0 < aheadBy p.travel.direction (o.getD (chainageC p)) (chainageC p)) :
    runContext p i first o = armContext p i first (o.getD (chainageC p)) := by
  cases o with
  | none =>
    rw [Option.getD_none, aheadBy_eq] at h
    omega
  | some x => exact if_pos h

/-- R87: PLAN WAKE finds no link. -/
theorem wakeContext_none {held : SegmentRecord} (hcur : (p.ctx i).current = some held)
    (hlink : (slotAt p.plan held.slot).contents.bind segmentLink = none) : wakeContext p i = p := by
  simp only [wakeContext, hcur, hlink]

theorem wakeContext_reached {held : SegmentRecord} {link : Nat} (hcur : (p.ctx i).current = some held)
    (hdead : (p.ctx i).dead = none) (hlink : (slotAt p.plan held.slot).contents.bind segmentLink = some link)
    (h : fetch i { plan := p.plan, stack := (p.ctx i).stack, repeatLeft := (p.ctx i).repeatLeft } link = (w, .reached k shadow)) :
    wakeContext p i = catchUp (handEvent (({ p with plan := w.plan } : Part).setCtx i
      { p.ctx i with state := .running, previous := some held, repeatLeft := w.repeatLeft, stack := w.stack,
                     current := some { slot := k, shadow := shadow, start := segmentEndOf p.travel.direction held } })
        (.planState i .running none (some k))) i := by
  simp only [wakeContext, hcur, hlink, Part.walk, h, Part.setWalk, handPlanState_setCtx, hdead]
  rfl

theorem wakeContext_died {held : SegmentRecord} {link : Nat} (hcur : (p.ctx i).current = some held)
    (hlink : (slotAt p.plan held.slot).contents.bind segmentLink = some link)
    (h : fetch i { plan := p.plan, stack := (p.ctx i).stack, repeatLeft := (p.ctx i).repeatLeft } link = (w, .died dead k)) :
    wakeContext p i = handEvent (({ p with plan := w.plan } : Part).setCtx i
      { state := .dead, dead := some (dead, k), armed := none, current := some held, previous := some held,
        repeatLeft := w.repeatLeft, stack := w.stack }) (.planState i .dead (some dead) (some k)) := by
  simp only [wakeContext, hcur, hlink, Part.walk, h, contextDies_eq]

/-- The context that a code of at most 1 names. -/
theorem contextOfCode_some {code : Nat} (h : code ≤ 1) :
    contextOfCode code = some (if code = 0 then ContextId.h else .v) := by
  interval_cases code <;> rfl

theorem contextOfCode_none {code : Nat} (h : 2 ≤ code) : contextOfCode code = none := by
  obtain ⟨n, rfl⟩ := Nat.exists_eq_add_of_le' h
  rfl

/-- R88: the slots that a context holds become DONE CUT, and no other slot changes. -/
theorem slotAt_cutSegment (plan : Table Slot) (r : Option SegmentRecord) (k : Nat) (h : Table.wf emptySlot plan = true) :
    slotAt (cutSegment plan r) k =
      if r.map (·.slot) = some k then { slotAt plan k with state := .done, code := some .cut } else slotAt plan k := by
  cases r with
  | none => rfl
  | some r =>
    rw [cutSegment, markDone, slotAt_setSlot _ _ _ _ h]
    by_cases hk : k = r.slot
    · subst hk; simp
    · simp [hk, Ne.symm hk]

theorem cutSegment_wf (plan : Table Slot) (r : Option SegmentRecord) (h : Table.wf emptySlot plan = true) :
    Table.wf emptySlot (cutSegment plan r) = true := by
  cases r with
  | none => exact h
  | some r => exact setSlot_wf _ _ _ h
end

/-- R88: what PLAN STOP leaves of plan memory. -/
theorem slotAt_cutBoth (plan : Table Slot) (c : Context) (k : Nat) (h : Table.wf emptySlot plan = true) :
    slotAt (cutSegment (cutSegment plan c.current) c.previous) k =
      if c.current.map (·.slot) = some k ∨ c.previous.map (·.slot) = some k then
        { slotAt plan k with state := .done, code := some .cut }
      else slotAt plan k := by
  rw [slotAt_cutSegment _ _ _ (cutSegment_wf _ _ h), slotAt_cutSegment _ _ _ h]
  by_cases hc : c.current.map (·.slot) = some k
  · rw [if_pos (Or.inl hc : c.current.map (·.slot) = some k ∨ c.previous.map (·.slot) = some k), if_pos hc]
    exact ite_self _
  · rw [if_neg hc]
    exact if_congr (or_iff_right hc).symm rfl rfl

/-- Settles O33. -/
theorem planWakeAndStop : Obligations.PlanWakeAndStop := by
  unfold Obligations.PlanWakeAndStop
  refine ⟨fun s r rest h hf hl => ?_, fun s r rest h hf hl => ?_⟩
  · intro ctx i p c
    have hlp : PlanLegal p := hl
    refine ⟨fun hbad => ?_, fun hgood hst => ?_, fun hgood hst => ?_, fun held hgood hst hcur => ?_⟩
    · refine (data_taken h rfl hf).trans (block_refused (st := .badField) ?_)
      rw [contextOfCode_none hbad]
    · refine (data_taken h rfl hf).trans (block_refused (st := .badState) ?_)
      rw [contextOfCode_some hgood]
      simp only [List.mem_cons, List.not_mem_nil, or_false] at hst
      show (match c.state with | .starved => _ | .running => _ | _ => _) = _
      rcases hst with hst | hst | hst <;> rw [hst]
    · refine (data_taken h rfl hf).trans (block_ok ?_)
      rw [contextOfCode_some hgood]
      show (match c.state with | .starved => _ | .running => contextAnswer p i | _ => _) = _
      rw [hst]
      show Answer.ok p [byte c.state.code] = _
      rw [hst]
      rfl
    · have hexec : exec .planWake s = .next (replied s (wakeContext p i) r 0 [byte ((wakeContext p i).ctx i).state.code]) := by
        refine (data_taken h rfl hf).trans (block_ok ?_)
        rw [contextOfCode_some hgood]
        show (match c.state with | .starved => contextAnswer (wakeContext p i) i | .running => _ | _ => _) = _
        rw [hst]
        rfl
      have hdead : c.dead = none := ((hlp.context i).dead_armed_none (hst ▸ nofun) (hst ▸ nofun)).1
      refine ⟨fun hlink => ?_, fun link w k shadow hlink hfetch => ?_, fun link w dead k hlink hfetch => ?_⟩
      · rw [hexec, wakeContext_none hcur hlink]
        have hcode : byte (p.ctx i).state.code = 3 := congrArg (fun st => byte (ContextState.code st)) hst
        rw [hcode]
      · intro q
        rw [hexec, wakeContext_reached hcur hdead hlink hfetch]
      · rw [hexec, wakeContext_died hcur hlink hfetch, handEvent_ctx, Part.setCtx_ctx_self]
        rfl
  · intro ctx i p c
    have hlp : PlanLegal p := hl
    refine ⟨fun hbad => ?_, fun hgood hst => ?_, fun hgood hst => ?_⟩
    · refine (data_taken h rfl hf).trans (block_refused (st := .badField) ?_)
      rw [contextOfCode_none hbad]
    · refine (data_taken h rfl hf).trans (block_ok ?_)
      rw [contextOfCode_some hgood]
      exact congrArg (Answer.ok · []) (if_pos hst)
    · refine ⟨cutSegment (cutSegment p.plan c.current) c.previous, ?_, fun k hk => ?_, fun k hk => ?_⟩
      · refine (data_taken h rfl hf).trans (block_ok ?_)
        rw [contextOfCode_some hgood]
        refine congrArg (Answer.ok · []) ((if_neg hst).trans ?_)
        show handPlanState _ _ _ = _
        rw [handPlanState_setCtx]
        rfl
      · rw [slotAt_cutBoth _ _ _ hlp.1]
        exact if_pos ((holds_iff c k).1 hk)
      · rw [slotAt_cutBoth _ _ _ hlp.1]
        exact if_neg fun hx => hk ((holds_iff c k).2 hx)

/-- R73: the start that PLAN RUN's bytes give; an absent one is taken whatever its bytes hold. -/
def startGiven (fs : List Byte) : Option Int := if fieldNat fs 3 1 = 0 then none else some (fieldInt fs 4 4)

/-- R73: the first slot, and the start when it is given, lie within their ranges. -/
theorem planRun_inRange_iff (first : Nat) (o : Option Int) :
    ¬ (slotNumber first = false ∨ (o.map inChainageRange).getD true = false) ↔
      first ≤ 511 ∧ ∀ x, o = some x → -99999999 ≤ x ∧ x ≤ 99999999 := by
  rw [not_or, Bool.not_eq_false, Bool.not_eq_false, slotNumber_iff]
  cases o with
  | none => simp
  | some x => simp [inChainageRange_iff]

/-- Settles O32. -/
theorem planRunArmsOrStarts : Obligations.PlanRunArmsOrStarts := by
  unfold Obligations.PlanRunArmsOrStarts
  refine ⟨fun s r rest h hf hl => ?_, fun p i hl => ?_⟩
  · intro ctx first code x i p c start good
    have hlp : PlanLegal p := hl
    have hstart : start = (startGiven r.fields).getD (chainageC p) := by
      unfold startGiven
      rw [apply_ite (Option.getD · (chainageC p))]
      rfl
    have hgoodIff : good ↔ ctx ≤ 1 ∧ (code = 0 ∨ code = 1) ∧
        ¬ (slotNumber first = false ∨ ((startGiven r.fields).map inChainageRange).getD true = false) := by
      rw [planRun_inRange_iff]
      show ctx ≤ 1 ∧ first ≤ 511 ∧ (code = 0 ∨ code = 1 ∧ -99999999 ≤ x ∧ x ≤ 99999999) ↔
        ctx ≤ 1 ∧ (code = 0 ∨ code = 1) ∧ first ≤ 511 ∧ ∀ y, (if code = 0 then none else some x) = some y → _
      by_cases h0 : code = 0
      · simp [h0]
      · simp [h0]; tauto
    have hparsed (hctx : ctx ≤ 1) (hcode : code = 0 ∨ code = 1) : exec .planRun s =
        .next (s.withPart (repliedPart s.part.store.working.partNode r
          (if slotNumber first = false ∨ ((startGiven r.fields).map inChainageRange).getD true = false then
            .refuse p .badField
          else if p.travel.originState = .none then .refuse p .badState
          else if c.state ≠ .stopped then .refuse p .badState
          else contextAnswer (runContext p i first (startGiven r.fields)) i))) := by
      refine (data_taken h rfl hf).trans (block_answers ?_)
      have hpresent : presence (fieldNat r.fields 3 1) (fieldInt r.fields 4 4) = some (startGiven r.fields) :=
        (presence_some_iff _ _ _).2 ⟨hcode, rfl⟩
      have hcontext : contextOfCode (fieldNat r.fields 0 1) = some i := contextOfCode_some hctx
      simp only [hcontext, hpresent]
      rfl
    have hexec (hg : good) (hset : p.travel.originState = .set) (hst : c.state = .stopped) : exec .planRun s =
        .next (replied s (runContext p i first (startGiven r.fields)) r 0
          [byte ((runContext p i first (startGiven r.fields)).ctx i).state.code]) := by
      obtain ⟨hctx, hcode, hin⟩ := hgoodIff.1 hg
      have horigin : ¬ p.travel.originState = .none := by rw [hset]; nofun
      exact (hparsed hctx hcode).trans (block_ok ((if_neg hin).trans ((if_neg horigin).trans (if_neg (not_not.2 hst)))))
    have hdead (hst : c.state = .stopped) : c.dead = none := ((hlp.context i).dead_armed_none (hst ▸ nofun) (hst ▸ nofun)).1
    refine ⟨fun hbad => ?_, fun hg hno => ?_, fun hg hset hst => ⟨fun hpos => ?_, fun w k shadow hle hfetch => ?_,
      fun w dead k hle hfetch => ?_⟩⟩
    · by_cases hctx : ctx ≤ 1
      · by_cases hcode : code = 0 ∨ code = 1
        · refine (hparsed hctx hcode).trans (block_refused (st := .badField) (if_pos (not_not.1 fun hin => hbad ?_)))
          exact hgoodIff.2 ⟨hctx, hcode, hin⟩
        · refine (data_taken h rfl hf).trans (block_refused (st := .badField) ?_)
          have habsent : presence (fieldNat r.fields 3 1) (fieldInt r.fields 4 4) = none :=
            (if_neg fun h0 => hcode (.inl h0)).trans (if_neg fun h1 => hcode (.inr h1))
          simp only [habsent]
          split <;> trivial
      · refine (data_taken h rfl hf).trans (block_refused (st := .badField) ?_)
        have hnone : contextOfCode (fieldNat r.fields 0 1) = none := contextOfCode_none (not_le.1 hctx)
        simp only [hnone]
    · obtain ⟨hctx, hcode, hin⟩ := hgoodIff.1 hg
      refine (hparsed hctx hcode).trans (block_refused (st := .badState) ((if_neg hin).trans ?_))
      rcases hno with hno | hno
      · exact if_pos hno
      · by_cases horigin : p.travel.originState = .none
        · exact if_pos horigin
        · exact (if_neg horigin).trans (if_pos hno)
    · rw [hstart] at hpos ⊢
      rw [hexec hg hset hst, runContext_arms hpos, armContext_eq _ (hdead hst), handEvent_ctx, Part.setCtx_ctx_self]
      rfl
    · intro q
      have hq : runContext p i first (startGiven r.fields) = q := by
        rw [runContext_starts (hstart ▸ hle), ← hstart]
        exact startContext_reached start (hdead hst) hfetch
      rw [hexec hg hset hst, hq]
    · rw [hexec hg hset hst, runContext_starts (hstart ▸ hle), ← hstart, startContext_died start hfetch, handEvent_ctx,
        Part.setCtx_ctx_self]
      rfl
  · intro c
    refine ⟨fun hst => ?_, fun hst => ?_, fun first start hst harmed => ?_⟩
    · simp only [List.mem_cons, List.not_mem_nil, or_false] at hst
      rcases hst with hst | hst | hst <;> simp only [contextAdvance, show (p.ctx i).state = _ from hst]
    · simp only [contextAdvance, show (p.ctx i).state = _ from hst]
    · have harrive : contextAdvance i p =
          if 0 ≤ aheadBy p.travel.direction (chainageC p) start then startContext p i first start else p := by
        simp only [contextAdvance, show (p.ctx i).state = _ from hst, show (p.ctx i).armed = _ from harmed]
      have hturn : aheadBy p.travel.direction (chainageC p) start = -aheadBy p.travel.direction start (chainageC p) := by
        rw [aheadBy_eq, aheadBy_eq]
        omega
      have hdead : c.dead = none := by
        rw [← Option.not_isSome_iff_eq_none, (hl.context i).2.1]
        exact hst ▸ nofun
      rw [harrive, hturn]
      refine ⟨fun hpos => if_neg (by omega), fun w k shadow hle hfetch => ?_, fun w dead k hle hfetch => ?_⟩
      · exact (if_pos (by omega)).trans (startContext_reached start hdead hfetch)
      · exact (if_pos (by omega)).trans (startContext_died start hfetch)

/-! ### A segment's end (R82 to R84) -/

/-- R82: the old previous slot becomes DONE TRAVERSED unless the current segment holds it. -/
theorem slotAt_giveUpPrevious {plan : Table Slot} (previous : Option SegmentRecord) (current k : Nat)
    (h : Table.wf emptySlot plan = true) : slotAt (giveUpPrevious plan previous current) k =
      if (∃ old, previous = some old ∧ old.slot = k) ∧ k ≠ current then
        { slotAt plan k with state := .done, code := some .traversed }
      else slotAt plan k := by
  cases previous with
  | none => exact (if_neg fun ⟨⟨_, hold, _⟩, _⟩ => nomatch hold).symm
  | some old =>
    rw [giveUpPrevious]
    by_cases hcur : old.slot = current
    · rw [if_pos hcur]
      exact (if_neg fun ⟨⟨_, hold, hk⟩, hne⟩ => hne (by cases hold; exact hk.symm.trans hcur)).symm
    · rw [if_neg hcur, markDone, slotAt_setSlot _ _ _ _ h]
      by_cases hk : k = old.slot
      · subst hk
        rw [if_pos rfl, if_pos ⟨⟨old, rfl, rfl⟩, hcur⟩]
      · rw [if_neg hk, if_neg fun ⟨⟨_, hold, hk'⟩, _⟩ => hk (by cases hold; exact hk'.symm)]

theorem giveUpPrevious_contents {plan : Table Slot} (previous : Option SegmentRecord) (current k : Nat)
    (h : Table.wf emptySlot plan = true) :
    (slotAt (giveUpPrevious plan previous current) k).contents = (slotAt plan k).contents := by
  rw [slotAt_giveUpPrevious previous current k h]
  split <;> rfl

section
variable {p : Part} {i : ContextId} {r : SegmentRecord} {plan : Table Slot}

/-- R82, R83: a segment end with no repeat left, with plan memory as the first step leaves it. -/
theorem segmentEnd_starves (hplan : giveUpPrevious p.plan (p.ctx i).previous r.slot = plan) (hrep : (p.ctx i).repeatLeft = 0)
    (hdead : (p.ctx i).dead = none) (hlink : (slotAt plan r.slot).contents.bind segmentLink = none) :
    segmentEnd p i r = handEvent (({ p with plan := plan } : Part).setCtx i
      { p.ctx i with state := .starved, previous := some r, current := some r }) (.planState i .starved none (some r.slot)) := by
  simp only [segmentEnd, hplan, hrep, hlink, handPlanState_setCtx, hdead]
  rfl

theorem segmentEnd_reached {link k : Nat} {w : Walk} {shadow : Descriptor}
    (hplan : giveUpPrevious p.plan (p.ctx i).previous r.slot = plan) (hrep : (p.ctx i).repeatLeft = 0)
    (hlink : (slotAt plan r.slot).contents.bind segmentLink = some link)
    (h : fetch i { plan := plan, stack := (p.ctx i).stack, repeatLeft := 0 } link = (w, .reached k shadow)) :
    segmentEnd p i r = ({ p with plan := w.plan } : Part).setCtx i
      { p.ctx i with previous := some r, repeatLeft := w.repeatLeft, stack := w.stack,
                     current := some { slot := k, shadow := shadow, start := segmentEndOf p.travel.direction r } } := by
  simp only [segmentEnd, hplan, hrep, hlink, Part.walk, h]
  rfl

theorem segmentEnd_died {link k : Nat} {w : Walk} {dead : DeadCode}
    (hplan : giveUpPrevious p.plan (p.ctx i).previous r.slot = plan) (hrep : (p.ctx i).repeatLeft = 0)
    (hlink : (slotAt plan r.slot).contents.bind segmentLink = some link)
    (h : fetch i { plan := plan, stack := (p.ctx i).stack, repeatLeft := 0 } link = (w, .died dead k)) :
    segmentEnd p i r = handEvent (({ p with plan := w.plan } : Part).setCtx i
      { state := .dead, dead := some (dead, k), armed := none, previous := some r, current := some r,
        repeatLeft := w.repeatLeft, stack := w.stack }) (.planState i .dead (some dead) (some k)) := by
  simp only [segmentEnd, hplan, hrep, hlink, Part.walk, h, contextDies_eq]
  rfl

end

/-- Settles O34. -/
theorem segmentEndsFollowTheLink : Obligations.SegmentEndsFollowTheLink := by
  unfold Obligations.SegmentEndsFollowTheLink
  intro p i r hl hst hcur c start
  have hstart : segmentEndOf p.travel.direction r = start := rfl
  have hdead : c.dead = none := ((hl.context i).dead_armed_none (by rw [hst]; nofun) (by rw [hst]; nofun)).1
  have hlinkAfter : (slotAt (giveUpPrevious p.plan c.previous r.slot) r.slot).contents = (slotAt p.plan r.slot).contents :=
    giveUpPrevious_contents _ _ _ hl.1
  refine ⟨giveUpPrevious p.plan c.previous r.slot, fun k => slotAt_giveUpPrevious c.previous r.slot k hl.1, fun hrep => ?_,
    fun hrep hlink => ?_, fun link w k shadow hrep hlink hfetch => ?_, fun link w dead k hrep hlink hfetch => ?_⟩
  · rw [segmentEnd, hstart]
    exact if_pos hrep
  · exact segmentEnd_starves rfl hrep hdead (hlinkAfter.symm ▸ hlink)
  · rw [segmentEnd_reached rfl hrep (hlinkAfter.symm ▸ hlink) hfetch, hstart]
  · exact segmentEnd_died rfl hrep (hlinkAfter.symm ▸ hlink) hfetch

/-! ### The fetch (R61, R62, R76 to R80) -/

/-- R77 to R79: plan memory with flow descriptors marked: each slot is as it was, or holds a flow descriptor and is DONE
EXECUTED or REPEAT_CANCELLED. -/
structure FlowMarked (plan plan' : Table Slot) : Prop where
  wf : Table.wf emptySlot plan' = true
  contents : ∀ j, (slotAt plan' j).contents = (slotAt plan j).contents
  marks : ∀ j, slotAt plan' j = slotAt plan j ∨ (∃ d, (slotAt plan j).contents = some d ∧ isFlow d = true) ∧
    (slotAt plan' j).state = .done ∧ (slotAt plan' j).code ∈ [some CompletionCode.executed, some .repeatCancelled]

theorem FlowMarked.refl {plan : Table Slot} (h : Table.wf emptySlot plan = true) : FlowMarked plan plan :=
  ⟨h, fun _ => rfl, fun _ => .inl rfl⟩

theorem FlowMarked.trans {a b c : Table Slot} (hab : FlowMarked a b) (hbc : FlowMarked b c) : FlowMarked a c where
  wf := hbc.wf
  contents j := (hbc.contents j).trans (hab.contents j)
  marks j := by
    rcases hbc.marks j with hj | ⟨⟨d, hd, hflow⟩, hdone⟩
    · rw [hj]
      exact hab.marks j
    · exact .inr ⟨⟨d, (hab.contents j).symm.trans hd, hflow⟩, hdone⟩

theorem FlowMarked.segment {plan plan' : Table Slot} (h : FlowMarked plan plan') {j : Nat} {d : Descriptor}
    (hd : (slotAt plan j).contents = some d) (hseg : isFlow d = false) : slotAt plan' j = slotAt plan j := by
  rcases h.marks j with hj | ⟨⟨d', hd', hflow⟩, -⟩
  · exact hj
  · rw [hd] at hd'
    cases hd'
    rw [hseg] at hflow
    cases hflow

theorem flowMarked_markDone {plan : Table Slot} {k : Nat} {d : Descriptor} (h : Table.wf emptySlot plan = true)
    (hd : (slotAt plan k).contents = some d) (hflow : isFlow d = true) {code : CompletionCode}
    (hcode : some code ∈ [some CompletionCode.executed, some .repeatCancelled]) : FlowMarked plan (markDone plan k code) := by
  refine ⟨setSlot_wf _ _ _ h, fun j => ?_, fun j => ?_⟩ <;> rw [markDone, slotAt_setSlot _ _ _ _ h]
  · split
    · next hj => rw [hj]
    · rfl
  · split
    · next hj => exact .inr ⟨hj ▸ ⟨d, hd, hflow⟩, rfl, hcode⟩
    · exact .inl rfl

/-- R77 to R79: a flow descriptor that is executed is marked. -/
theorem executeFlow_marks {w w' : Walk} {k next : Nat} {d : Descriptor} (h : Table.wf emptySlot w.plan = true)
    (hd : (slotAt w.plan k).contents = some d) (hflow : isFlow d = true) (hx : executeFlow w k d = (w', .ok next)) :
    FlowMarked w.plan w'.plan := by
  have executed := flowMarked_markDone h hd hflow (code := .executed) (by decide)
  cases d with
  | branch target => cases hx; exact executed
  | call target link => simp only [executeFlow] at hx; split at hx <;> cases hx; exact executed
  | ret => simp only [executeFlow] at hx; split at hx <;> cases hx; exact executed
  | repeatRun count link =>
    simp only [executeFlow] at hx
    split at hx <;> cases hx
    · exact flowMarked_markDone h hd hflow (by decide)
    · exact executed
  | segmentH | segmentV => cases hflow

/-- R78, R79: a flow descriptor that is not executed has met the end of the call stack. -/
theorem executeFlow_stack {w w' : Walk} {k : Nat} {d : Descriptor} {code : DeadCode} (hflow : isFlow d = true)
    (hx : executeFlow w k d = (w', .error code)) : code = .stackOver ∨ code = .stackUnder := by
  cases d with
  | branch target => cases hx
  | call target link => simp only [executeFlow] at hx; split at hx <;> cases hx; exact .inl rfl
  | ret => simp only [executeFlow] at hx; split at hx <;> cases hx; exact .inr rfl
  | repeatRun count link => simp only [executeFlow] at hx; split at hx <;> cases hx
  | segmentH | segmentV => cases hflow

/-- R76, R80: where a fetch ends, by what the slot it ends at holds. -/
def EndFits (i : ContextId) (plan : Table Slot) : FetchEnd → Prop
  | .reached k shadow => (slotAt plan k).contents = some shadow ∧ isOwnKind i shadow = true
  | .died code k => (code = .emptySlot ↔ (slotAt plan k).contents = none) ∧
      (code = .wrongKind ↔ ∃ d, (slotAt plan k).contents = some d ∧ isFlow d = false ∧ isOwnKind i d = false)

/-- R76: a segment that is reached becomes IN_USE. -/
def planAtEnd (plan : Table Slot) : FetchEnd → Table Slot
  | .reached k _ => markInUse plan k
  | .died _ _ => plan

theorem EndFits.of_contents {i : ContextId} {plan plan' : Table Slot} {e : FetchEnd}
    (h : ∀ j, (slotAt plan' j).contents = (slotAt plan j).contents) (he : EndFits i plan' e) : EndFits i plan e := by
  cases e with
  | reached k d => simpa only [EndFits, h] using he
  | died code k => simpa only [EndFits, h] using he

/-- A fetch that dies at a flow descriptor dies neither EMPTY_SLOT nor WRONG_KIND. -/
theorem endFits_flow {i : ContextId} {plan : Table Slot} {k : Nat} {d : Descriptor} {code : DeadCode}
    (hd : (slotAt plan k).contents = some d) (hflow : isFlow d = true) (hempty : code ≠ .emptySlot) (hkind : code ≠ .wrongKind) :
    EndFits i plan (.died code k) := by
  refine ⟨⟨fun h => absurd h hempty, fun h => ?_⟩, ⟨fun h => absurd h hkind, fun ⟨d', hd', hseg, _⟩ => ?_⟩⟩
  · rw [hd] at h; cases h
  · rw [hd] at hd'; cases hd'
    rw [hflow] at hseg; cases hseg

section
variable {i : ContextId} {w : Walk} {k : Nat} {d : Descriptor}

theorem fetchFrom_empty (left : Nat) (h : (slotAt w.plan k).contents = none) :
    fetchFrom i left w k = (w, .died .emptySlot k) := by
  rw [fetchFrom]
  simp only [h]

theorem fetchFrom_reached (left : Nat) (h : (slotAt w.plan k).contents = some d) (hown : isOwnKind i d = true) :
    fetchFrom i left w k = ({ w with plan := markInUse w.plan k }, .reached k d) := by
  rw [fetchFrom]
  simp only [h, isOwnKind_not_isFlow hown, hown, if_true, Bool.false_eq_true, if_false]

theorem fetchFrom_wrongKind (left : Nat) (h : (slotAt w.plan k).contents = some d) (hseg : isFlow d = false)
    (hown : isOwnKind i d = false) : fetchFrom i left w k = (w, .died .wrongKind k) := by
  rw [fetchFrom]
  simp only [h, hseg, hown, Bool.false_eq_true, if_false]

theorem fetchFrom_loop (h : (slotAt w.plan k).contents = some d) (hflow : isFlow d = true) :
    fetchFrom i 0 w k = (w, .died .flowLoop k) := by
  rw [fetchFrom]
  simp only [h, hflow, if_true]

theorem fetchFrom_goesOn {w' : Walk} {next : Nat} (left : Nat) (h : (slotAt w.plan k).contents = some d) (hflow : isFlow d = true)
    (hx : executeFlow w k d = (w', .ok next)) : fetchFrom i (left + 1) w k = fetchFrom i left w' next := by
  rw [fetchFrom]
  simp only [h, hflow, if_true, hx]

theorem fetchFrom_stops {w' : Walk} {code : DeadCode} (left : Nat) (h : (slotAt w.plan k).contents = some d)
    (hflow : isFlow d = true) (hx : executeFlow w k d = (w', .error code)) : fetchFrom i (left + 1) w k = (w, .died code k) := by
  rw [fetchFrom]
  simp only [h, hflow, if_true, hx, executeFlow_error hx]

end

/-- R76 to R80: a fetch marks flow descriptors only, and ends by what the slot it ends at holds. -/
theorem fetchFrom_marks (i : ContextId) (left : Nat) (w : Walk) (k : Nat) (h : Table.wf emptySlot w.plan = true) :
    ∃ plan, FlowMarked w.plan plan ∧ (fetchFrom i left w k).1.plan = planAtEnd plan (fetchFrom i left w k).2 ∧
      EndFits i w.plan (fetchFrom i left w k).2 := by
  cases hd : (slotAt w.plan k).contents with
  | none =>
    rw [fetchFrom_empty left hd]
    exact ⟨w.plan, .refl h, rfl, ⟨fun _ => hd, fun _ => rfl⟩, nofun, fun ⟨d, hd', _⟩ => by rw [hd] at hd'; cases hd'⟩
  | some d =>
    cases hflow : isFlow d with
    | false =>
      cases hown : isOwnKind i d with
      | true =>
        rw [fetchFrom_reached left hd hown]
        exact ⟨w.plan, .refl h, rfl, hd, hown⟩
      | false =>
        rw [fetchFrom_wrongKind left hd hflow hown]
        exact ⟨w.plan, .refl h, rfl, ⟨nofun, fun hnone => by rw [hd] at hnone; cases hnone⟩, fun _ => ⟨d, hd, hflow, hown⟩,
          fun _ => rfl⟩
    | true =>
      cases left with
      | zero =>
        rw [fetchFrom_loop hd hflow]
        exact ⟨w.plan, .refl h, rfl, endFits_flow hd hflow nofun nofun⟩
      | succ left =>
        obtain ⟨w', next | code, hx⟩ : ∃ w' n, executeFlow w k d = (w', n) := ⟨_, _, rfl⟩
        · rw [fetchFrom_stops left hd hflow hx]
          have hcode := executeFlow_stack hflow hx
          exact ⟨w.plan, .refl h, rfl, endFits_flow hd hflow (by rintro rfl; simp at hcode) (by rintro rfl; simp at hcode)⟩
        · have hmarks := executeFlow_marks h hd hflow hx
          obtain ⟨plan, hmarked, hplan, hends⟩ := fetchFrom_marks i left w' code hmarks.wf
          rw [fetchFrom_goesOn left hd hflow hx]
          exact ⟨plan, hmarks.trans hmarked, hplan, hends.of_contents hmarks.contents⟩

/-- Settles O31: each descriptor by its own rule, and the whole walk by induction. -/
theorem fetchesFollowFlowDescriptors : Obligations.FetchesFollowFlowDescriptors := by
  unfold Obligations.FetchesFollowFlowDescriptors
  refine ⟨fun _ _ _ => rfl, fun i w k left => ?_, fun i w w' entry e hwf hx => ?_⟩
  · intro marked
    refine ⟨fetchFrom_empty left, fun d => fetchFrom_loop, fun d hd hseg => ⟨fetchFrom_reached left hd,
      fetchFrom_wrongKind left hd hseg⟩, fun target hd => fetchFrom_goesOn left hd rfl rfl, fun target link hd => ⟨fun hroom => ?_,
      fun hfull => ?_⟩, fun hd => ⟨fun hempty => ?_, fun older newest hstack => ?_⟩, fun count link hd => ⟨fun hlink => ?_,
      fun hlink => ?_⟩⟩
    · exact fetchFrom_goesOn left hd rfl (if_pos hroom)
    · exact fetchFrom_stops left hd rfl (if_neg (not_lt.2 hfull))
    · exact fetchFrom_stops (w' := w) left hd rfl (by simp only [executeFlow, hempty, List.getLast?_nil])
    · refine fetchFrom_goesOn left hd rfl ?_
      simp only [executeFlow, hstack, List.getLast?_append_cons, List.getLast?_singleton, List.dropLast_concat]
      rfl
    · obtain ⟨d, hd', hflow⟩ := hlink
      exact fetchFrom_goesOn left hd rfl (if_pos (by rw [hd']; exact hflow))
    · refine fetchFrom_goesOn left hd rfl (if_neg ?_)
      cases hd' : (slotAt w.plan link).contents with
      | none => nofun
      | some d => exact ne_true_of_eq_false (hlink d hd')
  · obtain ⟨plan, hmarked, hplan, hends⟩ := fetchFrom_marks i 16 w entry hwf
    rw [show fetchFrom i 16 w entry = (w', e) from hx] at hplan hends
    cases e with
    | reached k shadow =>
      obtain ⟨hk, hown⟩ := hends
      have hslot (j : Nat) : slotAt w'.plan j = if j = k then { slotAt plan k with state := .inUse, code := none } else slotAt plan j := by
        rw [hplan]
        exact slotAt_setSlot _ _ _ _ hmarked.wf
      have hother {j : Nat} (hj : j ≠ k) : slotAt w'.plan j = slotAt plan j := (hslot j).trans (if_neg hj)
      refine ⟨?_, fun j => ?_, fun j d hd hflow => ?_, ?_, nofun⟩
      · rw [hplan]
        exact setSlot_wf _ _ _ hmarked.wf
      · rw [hslot]
        split
        · next hj => rw [hj]; exact hmarked.contents k
        · exact hmarked.contents j
      · have hj : j ≠ k := by
          rintro rfl
          rw [hk] at hd; cases hd
          rw [isOwnKind_not_isFlow hown] at hflow; cases hflow
        rw [hother hj]
        exact (hmarked.marks j).imp_right And.right
      · rintro k' shadow' he
        cases he
        have hseg : slotAt plan k = slotAt w.plan k := hmarked.segment hk (isOwnKind_not_isFlow hown)
        refine ⟨hk, hown, ?_, fun j d hj hd hflow => ?_⟩
        · rw [hslot, if_pos rfl, hseg]
        · rw [hother hj, hmarked.segment hd hflow]
    | died code k =>
      have hsame : w'.plan = plan := hplan
      rw [hsame]
      refine ⟨hmarked.wf, hmarked.contents, fun j d _ _ => (hmarked.marks j).imp_right And.right, nofun, ?_⟩
      rintro code' k' he
      cases he
      exact ⟨hends.1, hends.2, fun j d hd hseg => hmarked.segment hd hseg⟩

/-! ### The geometry answer (R89 to R91) -/

section
variable {p : Part} {i : ContextId}

/-- R90: C lies within a segment. -/
def CoversC (p : Part) (r : SegmentRecord) : Prop := 0 ≤ distanceInto p r ∧ distanceInto p r < segmentLength r.shadow

/-- R84: how far C lies beyond a segment's end. -/
theorem aheadBy_end (r : SegmentRecord) : aheadBy p.travel.direction (chainageC p) (segmentEndOf p.travel.direction r) =
    distanceInto p r - segmentLength r.shadow := by
  have hends := aheadBy_segmentEndOf p.travel.direction r (chainageC p)
  rw [distanceInto]
  rw [aheadBy_eq] at hends ⊢
  omega

/-- R89: the mode, and the segment that answers, of a context that holds a current segment. -/
theorem geometryOf_held {cur : SegmentRecord} (hstate : (p.ctx i).state ≠ .stopped ∧ (p.ctx i).state ≠ .armed)
    (hcur : (p.ctx i).current = some cur) :
    (CoversC p cur → geometryOf p i = (.inSegment, some cur)) ∧
    (∀ prev, ¬ CoversC p cur → (p.ctx i).previous = some prev → CoversC p prev → geometryOf p i = (.inSegment, some prev)) ∧
    (¬ CoversC p cur → (∀ prev, (p.ctx i).previous = some prev → ¬ CoversC p prev) →
      (segmentLength cur.shadow ≤ distanceInto p cur → geometryOf p i = (.holdEnd, some cur)) ∧
      (distanceInto p cur < segmentLength cur.shadow → geometryOf p i = (.holdStart, some ((p.ctx i).previous.getD cur)))) := by
  have hcovers (r : SegmentRecord) : (decide (0 ≤ aheadBy p.travel.direction (chainageC p) r.start) &&
      decide (aheadBy p.travel.direction (chainageC p) (segmentEndOf p.travel.direction r) < 0)) = true ↔ CoversC p r := by
    rw [aheadBy_end, Bool.and_eq_true, decide_eq_true_eq, decide_eq_true_eq]
    exact and_congr_right fun _ => sub_neg
  have hbeyond : 0 ≤ aheadBy p.travel.direction (chainageC p) (segmentEndOf p.travel.direction cur) ↔
      segmentLength cur.shadow ≤ distanceInto p cur := by rw [aheadBy_end, Int.sub_nonneg]
  have hstill : ¬ (0 ≤ aheadBy p.travel.direction (chainageC p) (segmentEndOf p.travel.direction cur)) ↔
      distanceInto p cur < segmentLength cur.shadow := by rw [hbeyond, not_le]
  obtain ⟨hstopped, harmed⟩ := hstate
  unfold geometryOf
  cases hst : (p.ctx i).state with
  | stopped => exact absurd hst hstopped
  | armed => exact absurd hst harmed
  | running | starved | dead =>
    simp only [hcur]
    refine ⟨fun h => if_pos ((hcovers cur).2 h), fun prev h hprev hin => ?_, fun h hprev => ?_⟩
    · rw [hprev]
      exact (if_neg (mt (hcovers cur).1 h)).trans (if_pos ((hcovers prev).2 hin))
    · have hnot := mt (hcovers cur).1 h
      cases hp : (p.ctx i).previous with
      | none => exact ⟨fun hle => (if_neg hnot).trans (if_pos (hbeyond.2 hle)),
          fun hlt => (if_neg hnot).trans (if_neg (hstill.2 hlt))⟩
      | some prev =>
        have hout := mt (hcovers prev).1 (hprev prev hp)
        exact ⟨fun hle => (if_neg hnot).trans ((if_neg hout).trans (if_pos (hbeyond.2 hle))),
          fun hlt => (if_neg hnot).trans ((if_neg hout).trans (if_neg (hstill.2 hlt)))⟩

/-- R89: a context that holds no current segment answers NONE. -/
theorem geometryOf_none (hcur : (p.ctx i).current = none) : geometryOf p i = (.none, none) := by
  unfold geometryOf
  cases hst : (p.ctx i).state <;> simp only [hst, hcur]

end

/-- Settles O36. -/
theorem geometryAtCComesFromAHeldSegment : Obligations.GeometryAtCComesFromAHeldSegment := by
  unfold Obligations.GeometryAtCComesFromAHeldSegment
  intro p hl ahead within answers i c
  have hanswers (mode : GeometryMode) (r : SegmentRecord) (hmode : mode ≠ .none) (hgeo : geometryOf p i = (mode, some r))
      (hown : isOwnKind i r.shadow = true) : answers i mode r := by
    cases i with
    | h =>
      cases hr : r.shadow with
      | segmentH g =>
        refine ⟨g, hr, ?_⟩
        simp only [answerH, hgeo, hr, answerU]
        cases mode with
        | none => exact absurd rfl hmode
        | inSegment | holdEnd | holdStart => rfl
      | _ => rw [hr] at hown; cases hown
    | v =>
      cases hr : r.shadow with
      | segmentV g =>
        refine ⟨g, hr, ?_⟩
        simp only [answerV, hgeo, hr, answerU]
        cases mode with
        | none => exact absurd rfl hmode
        | inSegment | holdEnd | holdStart => rfl
      | _ => rw [hr] at hown; cases hown
  obtain ⟨-, -, hidle, hrunning, hstarved, hdead, -, -, hshadow⟩ := hl.context i
  refine ⟨fun hcur => ?_, ⟨fun hcur => ?_, ?_⟩, fun cur hcur => ?_⟩
  · have hnone := geometryOf_none hcur
    cases i with
    | h => simp only [answerH, hnone]
    | v => simp only [answerV, hnone]
  · cases hst : c.state with
    | stopped => exact .inl rfl
    | armed => exact .inr (.inl rfl)
    | dead => exact .inr (.inr ⟨rfl, hcur⟩)
    | running => have hsome := hrunning hst; rw [hcur] at hsome; cases hsome
    | starved => have hsome := (hstarved hst).1; rw [hcur] at hsome; cases hsome
  · rintro (hst | hst | ⟨-, hcur⟩)
    · exact (hidle (.inl hst)).1
    · exact (hidle (.inr hst)).1
    · exact hcur
  · have hbusy : c.state ≠ .stopped ∧ c.state ≠ .armed := by
      refine ⟨fun hst => ?_, fun hst => ?_⟩
      · rw [(hidle (.inl hst)).1] at hcur; cases hcur
      · rw [(hidle (.inr hst)).1] at hcur; cases hcur
    obtain ⟨hin, hprev, hout⟩ := geometryOf_held hbusy hcur
    have hownCur := (hshadow cur (.inl hcur)).1
    refine ⟨fun h => hanswers _ _ nofun (hin h) hownCur, fun prev h hp hcov =>
      hanswers _ _ nofun (hprev prev h hp hcov) (hshadow prev (.inr hp)).1, fun h hno => ⟨fun hle => ?_, fun hlt => ?_⟩⟩
    · exact hanswers _ _ nofun ((hout h hno).1 hle) hownCur
    · refine hanswers _ _ nofun ((hout h hno).2 hlt) ?_
      cases hp : c.previous with
      | none => exact hownCur
      | some prev => exact (hshadow prev (.inr hp)).1

end Sys2Proof.Machine
end

section
/-! PROOF. The stop point, the record in position, passing and recording (R37, R41 to R50). -/

namespace Sys2Proof.Machine
open Sys2Proof Sys2Proof.Safety

/-! ### The stop point (R49, R50) -/

/-- R49: a record that the stop point may name. -/
def StopEligible (p : Part) (r : SleeperRecord) : Prop :=
  r ∈ p.queue.records ∧ r.state = .pending ∧ r.candidate.skip = none ∧
    -p.store.working.positionTolerance ≤ aheadBy p.travel.direction r.candidate.centre (chainageC p)

section
variable {p q : Part} {r : SleeperRecord}

theorem stopTarget_test_iff : r ∈ p.queue.records ∧ (decide (r.state = .pending) && r.candidate.skip.isNone &&
    decide (0 ≤ aheadBy p.travel.direction r.candidate.centre (chainageC p) + p.store.working.positionTolerance)) = true ↔
      StopEligible p r := by
  rw [StopEligible, Bool.and_eq_true, Bool.and_eq_true, decide_eq_true_eq, decide_eq_true_eq, Option.isNone_iff_eq_none, and_assoc,
    neg_le_iff_add_nonneg]

theorem stopTarget_none (h : ∀ r, ¬ StopEligible p r) : stopTarget p = none :=
  List.find?_eq_none.2 fun r hr htest => h r (stopTarget_test_iff.1 ⟨hr, htest⟩)

theorem stopTarget_some (hrising : Rising p.queue.records) (hr : StopEligible p r)
    (hlow : ∀ x, StopEligible p x → r.number ≤ x.number) : stopTarget p = some r :=
  find?_eq_lowest hrising hr.1 (stopTarget_test_iff.2 hr).2 fun x hx htest => hlow x (stopTarget_test_iff.1 ⟨hx, htest⟩)

/-- The stop point turns on the records, the latch, C and the tolerance alone. -/
theorem stopPointOf_congr (hrecords : q.queue.records = p.queue.records) (hlatch : q.queue.latch = p.queue.latch)
    (htravel : q.travel = p.travel) (hstore : q.store = p.store) : stopPointOf q = stopPointOf p := by
  have htarget : stopTarget q = stopTarget p := by
    unfold stopTarget
    rw [hrecords, htravel, hstore, chainageC_of_travel_store htravel hstore]
  unfold stopPointOf
  rw [htarget, hlatch]

/-- R50: a stop point that is unchanged is not handed on. -/
theorem testStopPoint_same (h : stopPointOf p = p.queue.lastStop) : testStopPoint p = p := if_pos h

end

/-! ### The record in position (R45) -/

/-- R45: how far a record's centre lies from C. -/
def distanceTo (c : Int) (r : SleeperRecord) : Nat := (r.candidate.centre - c).natAbs

/-- R45: the nearest of the records within the tolerance, the lower-numbered of two equally near. -/
def IsNearest (c tolerance : Int) (rs : List SleeperRecord) (r : SleeperRecord) : Prop :=
  r ∈ rs ∧ (distanceTo c r : Int) ≤ tolerance ∧
    ∀ x ∈ rs, distanceTo c r < distanceTo c x ∨ (distanceTo c r = distanceTo c x ∧ r.number ≤ x.number)

/-- R45: what the search among records has found. -/
def NearestIs (c tolerance : Int) (rs : List SleeperRecord) : Option SleeperRecord → Prop
  | none => ∀ r ∈ rs, tolerance < distanceTo c r
  | some r => IsNearest c tolerance rs r

section
variable {c tolerance : Int} {rs seen : List SleeperRecord}

theorem nearer_far {best : Option SleeperRecord} {y : SleeperRecord} (h : ¬ (distanceTo c y : Int) ≤ tolerance) :
    nearer c tolerance best y = best := if_neg h

theorem nearer_none {y : SleeperRecord} (h : (distanceTo c y : Int) ≤ tolerance) :
    nearer c tolerance none y = some y := if_pos h

theorem nearer_closer {b y : SleeperRecord} (h : (distanceTo c y : Int) ≤ tolerance) (hlt : distanceTo c y < distanceTo c b) :
    nearer c tolerance (some b) y = some y := (if_pos h).trans (if_pos hlt)

theorem nearer_stays {b y : SleeperRecord} (h : (distanceTo c y : Int) ≤ tolerance) (hlt : ¬ distanceTo c y < distanceTo c b) :
    nearer c tolerance (some b) y = some b := (if_pos h).trans (if_neg hlt)

/-- A record of a higher number joins those searched. -/
theorem NearestIs.next {best : Option SleeperRecord} {y : SleeperRecord} (h : NearestIs c tolerance seen best)
    (hhigh : ∀ x ∈ seen, x.number < y.number) : NearestIs c tolerance (seen ++ [y]) (nearer c tolerance best y) := by
  by_cases hin : (distanceTo c y : Int) ≤ tolerance
  · cases best with
    | none =>
      rw [nearer_none hin]
      refine ⟨by simp, hin, fun x hx => ?_⟩
      rcases List.mem_append.1 hx with hx | hx
      · have hfar := h x hx
        omega
      · exact .inr ⟨by rw [List.mem_singleton.1 hx], by rw [List.mem_singleton.1 hx]⟩
    | some b =>
      obtain ⟨hb, htol, hall⟩ := h
      by_cases hlt : distanceTo c y < distanceTo c b
      · rw [nearer_closer hin hlt]
        refine ⟨by simp, hin, fun x hx => ?_⟩
        rcases List.mem_append.1 hx with hx | hx
        · have hx := hall x hx
          omega
        · exact .inr ⟨by rw [List.mem_singleton.1 hx], by rw [List.mem_singleton.1 hx]⟩
      · rw [nearer_stays hin hlt]
        refine ⟨List.mem_append_left _ hb, htol, fun x hx => ?_⟩
        rcases List.mem_append.1 hx with hx | hx
        · exact hall x hx
        · have hnum := hhigh b hb
          rw [List.mem_singleton.1 hx]
          omega
  · rw [nearer_far hin]
    cases best with
    | none =>
      intro x hx
      rcases List.mem_append.1 hx with hx | hx
      · exact h x hx
      · rw [List.mem_singleton.1 hx]
        omega
    | some b =>
      obtain ⟨hb, htol, hall⟩ := h
      refine ⟨List.mem_append_left _ hb, htol, fun x hx => ?_⟩
      rcases List.mem_append.1 hx with hx | hx
      · exact hall x hx
      · rw [List.mem_singleton.1 hx]
        omega

theorem nearestIs_foldl {best : Option SleeperRecord} (h : NearestIs c tolerance seen best) (hrising : Rising (seen ++ rs)) :
    NearestIs c tolerance (seen ++ rs) (rs.foldl (nearer c tolerance) best) := by
  induction rs generalizing seen best with
  | nil => simpa using h
  | cons y rs ih =>
    have hsplit : seen ++ y :: rs = (seen ++ [y]) ++ rs := by simp
    rw [hsplit] at hrising ⊢
    have hseen := (List.pairwise_append.1 hrising).1
    exact ih (h.next fun x hx => (List.pairwise_append.1 hseen).2.2 x hx y (by simp)) hrising

/-- R45: no two records are both the nearest. -/
theorem IsNearest.unique {r x : SleeperRecord} (hrising : Rising rs) (hr : IsNearest c tolerance rs r)
    (hx : IsNearest c tolerance rs x) : r = x := by
  have hrx := hr.2.2 x hx.1
  have hxr := hx.2.2 r hr.1
  exact hrising.unique hr.1 hx.1 (by omega)

end

section
variable {p q : Part}

theorem recordInPosition_nearest (horigin : p.travel.originState = .set) (hrising : Rising p.queue.records) :
    NearestIs (chainageC p) p.store.working.positionTolerance p.queue.records (recordInPosition p) := by
  rw [recordInPosition, horigin]
  exact nearestIs_foldl (seen := []) (best := none) (fun _ h => nomatch h) hrising

/-- The record in position turns on the records, C, the origin state and the tolerance alone. -/
theorem recordInPosition_congr (hrecords : q.queue.records = p.queue.records) (htravel : q.travel = p.travel)
    (hstore : q.store = p.store) : recordInPosition q = recordInPosition p := by
  unfold recordInPosition
  rw [hrecords, htravel, hstore, chainageC_of_travel_store htravel hstore]

end

/-- Settles O25. -/
theorem stopPointAndRecordInPosition : Obligations.StopPointAndRecordInPosition := by
  unfold Obligations.StopPointAndRecordInPosition
  refine ⟨fun p hrising => ?_, fun p horigin hrising => ?_⟩
  · intro eligible target
    refine ⟨fun hno => ?_, fun r hr hlatch => ?_, fun r h hr hlatch hle => ?_, testStopPoint_same, fun hne centre hheld hnone => ?_⟩
    · have hnotarget : stopTarget p = none := stopTarget_none hno
      cases hlatch : p.queue.latch <;> simp only [stopPointOf, hnotarget, hlatch]
    · have hsome : stopTarget p = some r := stopTarget_some hrising hr.1 hr.2
      cases hl : p.queue.latch with
      | none => simp only [stopPointOf, hsome, hl]
      | some h =>
        have hlt := hlatch h hl
        simp only [stopPointOf, hsome, hl]
        exact if_neg (by omega)
    · have hsome : stopTarget p = some r := stopTarget_some hrising hr.1 hr.2
      simp only [stopPointOf, hsome, hlatch]
      exact if_pos hle
    · have hcentre : ((stopPointOf p).sleeper.bind (recordAt p.queue.records)).map (fun r => r.candidate.centre) = centre := by
        cases hat : (stopPointOf p).sleeper.bind (recordAt p.queue.records) with
        | none =>
          refine (hnone fun r hr hs => ?_).symm
          rw [hs, Option.bind_some, recordAt_of_mem hrising hr] at hat
          cases hat
        | some r =>
          obtain ⟨n, hs, hr⟩ := Option.bind_eq_some_iff.1 hat
          obtain ⟨hmem, rfl⟩ := recordAt_mem hr
          exact (hheld r hmem hs).symm
      exact (if_neg hne).trans (by rw [hcentre])
  · intro dist
    have hnearest := recordInPosition_nearest horigin hrising
    have hsome (r : SleeperRecord) : recordInPosition p = some r ↔
        IsNearest (chainageC p) p.store.working.positionTolerance p.queue.records r := by
      refine ⟨fun h => by rw [h] at hnearest; exact hnearest, fun hr => ?_⟩
      cases hpos : recordInPosition p with
      | none =>
        rw [hpos] at hnearest
        exact absurd hr.2.1 (not_le.2 (hnearest r hr.1))
      | some x =>
        rw [hpos] at hnearest
        rw [hr.unique hrising hnearest]
    refine ⟨⟨fun hpos => by rw [hpos] at hnearest; exact hnearest, fun hfar => ?_⟩, hsome⟩
    cases hpos : recordInPosition p with
    | none => rfl
    | some r =>
      have hr := (hsome r).1 hpos
      exact absurd hr.2.1 (not_le.2 (hfar r hr.1))

/-! ### Passing (R44) -/

/-- R44: a record as C's position leaves it. -/
def passedRecord (p : Part) (r : SleeperRecord) : SleeperRecord :=
  if r.state = passedState p r then r else { r with state := passedState p r, reported := false }

/-- R44: the records of the numbers tested, as C's position leaves them. -/
def passedAmong (p : Part) (ns : List Nat) (r : SleeperRecord) : SleeperRecord := if r.number ∈ ns then passedRecord p r else r

section
variable {p q : Part} {r : SleeperRecord}

theorem passedState_of_pass (h : r.state = .pending ∧ hasPassed p r = true) :
    passedState p r = if r.candidate.skip.isSome then .skipped else .passed :=
  if_pos ⟨h.1, of_decide_eq_true h.2⟩

theorem passedState_of_stay (h : ¬ (r.state = .pending ∧ hasPassed p r = true)) : passedState p r = r.state :=
  if_neg fun hp => h ⟨hp.1, decide_eq_true hp.2⟩

theorem passedRecord_of_pass (h : r.state = .pending ∧ hasPassed p r = true) :
    passedRecord p r = { r with state := if r.candidate.skip.isSome then .skipped else .passed, reported := false } := by
  unfold passedRecord
  rw [passedState_of_pass h, h.1]
  exact if_neg (by split <;> nofun)

theorem passedRecord_of_stay (h : ¬ (r.state = .pending ∧ hasPassed p r = true)) : passedRecord p r = r :=
  if_pos (passedState_of_stay h).symm

@[simp] theorem passedRecord_number : (passedRecord p r).number = r.number := by unfold passedRecord; split <;> rfl

theorem passedRecord_ne_of_pass (h : r.state = .pending ∧ hasPassed p r = true) : passedRecord p r ≠ r := by
  rw [passedRecord_of_pass h]
  intro he
  have hst := congrArg SleeperRecord.state he
  rw [h.1] at hst
  revert hst
  split <;> nofun

/-- A record that has been passed is passed no further. -/
theorem passedRecord_twice : passedRecord p (passedRecord p r) = passedRecord p r := by
  by_cases h : r.state = .pending ∧ hasPassed p r = true
  · refine passedRecord_of_stay fun hst => ?_
    rw [passedRecord_of_pass h] at hst
    revert hst
    split <;> nofun
  · rw [passedRecord_of_stay h, passedRecord_of_stay h]

theorem passedRecord_congr (htravel : q.travel = p.travel) (hstore : q.store = p.store) : passedRecord q = passedRecord p := by
  funext r
  have hstate : passedState q r = passedState p r := by
    unfold passedState
    rw [htravel, hstore, chainageC_of_travel_store htravel hstore]
  unfold passedRecord
  rw [hstate]

/-- R44: one record is tested, and passed or left. -/
theorem passRecord_cases (n : Nat) (hrising : Rising p.queue.records) :
    (passRecord p n = p ∧ ∀ r ∈ p.queue.records, r.number = n → passedRecord p r = r) ∨
    (passRecord p n = testStopPoint (p.withRecords (p.queue.records.map (passedAmong p [n]))) ∧
      ∃ r ∈ p.queue.records, r.number = n ∧ passedRecord p r ≠ r) := by
  unfold passRecord
  cases hat : recordAt p.queue.records n with
  | none => exact .inl ⟨rfl, fun r hr hn => by rw [← hn, recordAt_of_mem hrising hr] at hat; cases hat⟩
  | some r =>
    obtain ⟨hr, rfl⟩ := recordAt_mem hat
    have honly : ∀ x ∈ p.queue.records, x.number = r.number → x = r := fun x hx hn => hrising.unique hx hr hn
    by_cases hpass : r.state = .pending ∧ hasPassed p r = true
    · refine .inr ⟨(if_pos hpass).trans ?_, r, hr, rfl, passedRecord_ne_of_pass hpass⟩
      refine congrArg (fun rs => testStopPoint (p.withRecords rs)) (List.map_congr_left fun x hx => ?_)
      unfold passedAmong
      by_cases hn : x.number = r.number
      · rw [if_pos hn, if_pos (List.mem_singleton.2 hn), honly x hx hn, passedRecord_of_pass hpass]
      · rw [if_neg hn, if_neg (mt List.mem_singleton.1 hn)]
    · exact .inl ⟨if_neg hpass, fun x hx hn => honly x hx hn ▸ passedRecord_of_stay hpass⟩

end

/-- R44: what the tests of the numbers make of the part. -/
structure Passes (p : Part) (ns : List Nat) (t : Part) : Prop where
  records : t.queue.records = p.queue.records.map (passedAmong p ns)
  frame : t = { p with queue := { p.queue with records := t.queue.records, lastStop := t.queue.lastStop }, port := t.port }
  moved : t = p ∨ t.queue.lastStop = stopPointOf t ∧ t.queue.records ≠ p.queue.records

section
variable {p q t : Part} {ns ms : List Nat}

theorem part_eq_of_offQueue (h : q.offQueue = p.offQueue) : q = { p with queue := q.queue, port := q.port } := by
  obtain ⟨_, _, _, _, _, _, _, _, _, _, _, _, _, _, _, _⟩ := p
  obtain ⟨_, _, _, _, _, _, _, _, _, _, _, _, _, _, _, _⟩ := q
  simp only [Part.offQueue, Part.ground, Prod.mk.injEq, Ground.mk.injEq] at h
  obtain ⟨⟨rfl, rfl, rfl, rfl, rfl, rfl, rfl, rfl, rfl, rfl, rfl, rfl⟩, rfl, rfl⟩ := h
  rfl

theorem testStopPoint_frame (p : Part) : testStopPoint p =
    { p with queue := { p.queue with lastStop := stopPointOf p }, port := (testStopPoint p).port } := by
  conv_lhs => rw [part_eq_of_offQueue (testStopPoint_offQueue p), testStopPoint_queue]

/-- R50: the last stop point handed on is the stop point, once it has been tested. -/
theorem testStopPoint_lastStop (p : Part) : (testStopPoint p).queue.lastStop = stopPointOf (testStopPoint p) := by
  have hoff := testStopPoint_offQueue p
  rw [testStopPoint_queue]
  exact (stopPointOf_congr (by rw [testStopPoint_queue]) (by rw [testStopPoint_queue])
    (travel_of_ground (ground_of_offQueue hoff)) (store_of_ground (ground_of_offQueue hoff))).symm

theorem map_eq_self_iff {α : Type} {f : α → α} {l : List α} : l.map f = l ↔ ∀ x ∈ l, f x = x := by
  conv_lhs => rhs; rw [← List.map_id l]
  exact List.map_inj_left

theorem passedAmong_singleton_of_stay {n : Nat} {r : SleeperRecord} (h : r.number = n → passedRecord p r = r) :
    passedAmong p [n] r = r := by
  unfold passedAmong
  split
  · next hn => exact h (List.mem_singleton.1 hn)
  · rfl

theorem Passes.ground (h : Passes p ns t) : t.travel = p.travel ∧ t.store = p.store := by
  rw [h.frame]
  exact ⟨rfl, rfl⟩

theorem passes_nil : Passes p [] p :=
  ⟨(map_eq_self_iff.2 fun _ _ => if_neg List.not_mem_nil).symm, rfl, .inl rfl⟩

theorem passRecord_passes (n : Nat) (hrising : Rising p.queue.records) : Passes p [n] (passRecord p n) := by
  rcases passRecord_cases n hrising with ⟨hsame, hstay⟩ | ⟨hpass, r, hr, hn, hne⟩
  · rw [hsame]
    exact ⟨(map_eq_self_iff.2 fun r hr => passedAmong_singleton_of_stay (hstay r hr)).symm, rfl, .inl rfl⟩
  · rw [hpass]
    refine ⟨by rw [testStopPoint_queue]; rfl, ?_, .inr ⟨testStopPoint_lastStop _, ?_⟩⟩
    · conv_lhs => rw [testStopPoint_frame]
      rw [testStopPoint_queue]
      rfl
    · rw [testStopPoint_queue]
      intro hsame
      have hr' := map_eq_self_iff.1 hsame r hr
      rw [passedAmong, if_pos (List.mem_singleton.2 hn)] at hr'
      exact hne hr'

theorem Passes.rising (h : Passes p ns t) (hrising : Rising p.queue.records) : Rising t.queue.records := by
  rw [h.records]
  refine List.pairwise_map.2 (hrising.imp fun {x y} hxy => ?_)
  unfold passedAmong
  split <;> split <;> simpa using hxy

/-- The tests of two runs of numbers, one after the other. -/
theorem Passes.trans (hq : Passes p ns q) (ht : Passes q ms t) : Passes p (ns ++ ms) t := by
  have hsame : passedRecord q = passedRecord p := passedRecord_congr hq.ground.1 hq.ground.2
  have hboth (r : SleeperRecord) : passedAmong q ms (passedAmong p ns r) = passedAmong p (ns ++ ms) r := by
    unfold passedAmong
    rw [hsame]
    by_cases hn : r.number ∈ ns
    · rw [if_pos hn, if_pos (List.mem_append_left ms hn), passedRecord_twice, ite_self]
    · rw [if_neg hn]
      exact if_congr (by simp [hn]) rfl rfl
  have hrecords : t.queue.records = p.queue.records.map (passedAmong p (ns ++ ms)) := by
    rw [ht.records, hq.records, List.map_map]
    exact List.map_congr_left fun r _ => hboth r
  refine ⟨hrecords, ?_, ?_⟩
  · conv_lhs => rw [ht.frame, hq.frame]
  · rcases ht.moved with rfl | ⟨hstop, hne⟩
    · exact hq.moved
    · refine .inr ⟨hstop, fun he => hne (he.trans ?_)⟩
      rw [hq.records]
      refine (map_eq_self_iff.2 fun r hr => ?_).symm
      have hr' := map_eq_self_iff.1 (hrecords.symm.trans he) r hr
      unfold passedAmong at hr' ⊢
      split
      · next hn => rwa [if_pos (List.mem_append_left ms hn)] at hr'
      · rfl

theorem foldl_passRecord_passes (ns : List Nat) (hrising : Rising p.queue.records) : Passes p ns (ns.foldl passRecord p) := by
  induction ns generalizing p with
  | nil => exact passes_nil
  | cons n ns ih =>
    have hn := passRecord_passes n hrising
    exact hn.trans (ih (hn.rising hrising))

end

/-- Settles O24. -/
theorem advancesPassPendingRecords : Obligations.AdvancesPassPendingRecords := by
  unfold Obligations.AdvancesPassPendingRecords
  intro p hl t
  have hpass : Passes p (p.queue.records.map (·.number)) t := foldl_passRecord_passes _ hl.2.1
  refine ⟨?_, ?_, fun hne => ?_, fun hsame => ?_, ?_⟩
  · rw [hpass.records]
    exact List.map_congr_left fun r hr => if_pos (List.mem_map_of_mem hr)
  · conv_lhs => rw [hpass.frame]
  · exact (hpass.moved.resolve_left fun he => hne (by rw [he])).1
  · exact hpass.moved.resolve_right fun hm => hm.2 hsame
  · conv_lhs => rw [hpass.frame]
    conv_rhs => rw [hpass.frame]

/-! ### Recording (R37, R41, R42) -/

/-- R184: a HALT waits, or its report stands in the transmit queue. -/
def HaltTold (h : HaltReport) (p : Part) : Prop :=
  p.port.halt = some h ∨ ∃ seq,
    { ident := 114 * 16 + p.store.working.partNode,
      data := byte seq :: 8 :: (writeInt 4 h.sleeper ++ writeInt 4 h.centre), length := 12 } ∈ p.port.tx

section
variable {p q : Part} {h : HaltReport} {r : SleeperRecord}

theorem HaltTold.congr (ht : HaltTold h p) (hport : q.port = p.port) (hstore : q.store = p.store) : HaltTold h q := by
  unfold HaltTold
  rw [hport, hstore]
  exact ht

/-- R183: an admission leaves the HALT waiting, or admits it, or leaves its report where it is. -/
theorem admitSource_haltTold (src : ReportSource) (ht : HaltTold h p) : HaltTold h (admitSource p src) := by
  cases src with
  | halt =>
    cases hh : p.port.halt with
    | none => simpa only [admitSource, admitHalt, hh] using ht
    | some r =>
      rw [admitSource_halt hh]
      refine .inr ?_
      rcases ht with hwait | ⟨seq, hseq⟩
      · cases hh.symm.trans hwait
        exact ⟨p.port.seq, List.mem_append_right _ (List.mem_singleton.2 rfl)⟩
      · exact ⟨seq, List.mem_append_left _ hseq⟩
  | stopPoint =>
    cases hr : p.port.stop with
    | none => simpa only [admitSource, admitStop, hr] using ht
    | some r =>
      rw [admitSource_stop hr]
      exact ht.imp_right fun ⟨seq, hseq⟩ => ⟨seq, List.mem_append_left _ hseq⟩
  | event k =>
    cases he : p.port.events.get k with
    | none => simpa only [admitSource, admitEvent, he] using ht
    | some e =>
      rw [admitSource_event he]
      exact ht.imp_right fun ⟨seq, hseq⟩ => ⟨seq, List.mem_append_left _ hseq⟩

theorem admitWaiting_haltTold (n : Nat) : ∀ {p : Part}, HaltTold h p → HaltTold h (admitWaiting n p) := by
  induction n with
  | zero => exact fun ht => ht
  | succ n ih =>
    intro p ht
    unfold admitWaiting
    split
    · split
      · exact ht
      · exact ih (admitSource_haltTold _ ht)
    · exact ht

theorem handHalt_haltTold (p : Part) (h : HaltReport) : HaltTold h (handHalt p h) := admitWaiting_haltTold 8 (.inl rfl)

theorem testStopPoint_haltTold (ht : HaltTold h p) : HaltTold h (testStopPoint p) := by
  unfold testStopPoint
  simp only
  split
  · exact ht
  · exact admitWaiting_haltTold 8 ht

theorem passRecord_haltTold (n : Nat) (ht : HaltTold h p) : HaltTold h (passRecord p n) := by
  unfold passRecord
  split
  · exact ht
  · split
    · exact testStopPoint_haltTold ht
    · exact ht

theorem haltStep_queue (p : Part) (r : SleeperRecord) : (haltStep p r).queue =
    { p.queue with latch := if r.candidate.halt = true ∧ p.queue.latch = none then some r.number else p.queue.latch } := by
  unfold haltStep
  split
  · next hc => rw [handHalt_queue]
  · next hc => rfl

theorem haltStep_haltTold (hhalt : r.candidate.halt = true) (hlatch : p.queue.latch = none) :
    HaltTold { sleeper := r.number, centre := r.candidate.centre } (haltStep p r) := by
  unfold haltStep
  rw [if_pos ⟨hhalt, hlatch⟩]
  exact handHalt_haltTold _ _

end

/-- R41: where room is made, it is the lowest-numbered reported record that goes. -/
theorem dropLowestReported_split {before after : List SleeperRecord} {r : SleeperRecord}
    (hbefore : ∀ x ∈ before, SleeperRecord.isReported x = false) (hr : SleeperRecord.isReported r = true) :
    dropLowestReported (before ++ r :: after) = before ++ after := by
  induction before with
  | nil => exact if_pos hr
  | cons x before ih =>
    have hx := hbefore x List.mem_cons_self
    refine (if_neg (by rw [hx]; nofun)).trans ?_
    rw [List.append_eq, ih fun y hy => hbefore y (List.mem_cons_of_mem x hy)]
    rfl

/-- R41: no room is left exactly with 16 records and none reported. -/
theorem roomForRecord_none {rs : List SleeperRecord} (hfull : 16 ≤ rs.length ∧ ∀ r ∈ rs, SleeperRecord.isReported r = false) :
    roomForRecord rs = none := by
  refine (if_neg (by omega)).trans (if_neg ?_)
  rw [List.any_eq_true]
  rintro ⟨r, hr, hrep⟩
  rw [hfull.2 r hr] at hrep
  cases hrep

/-- R41: the room that is made for one more record. -/
theorem roomForRecord_some {rs : List SleeperRecord} (hroom : ¬ (16 ≤ rs.length ∧ ∀ r ∈ rs, SleeperRecord.isReported r = false)) :
    ∃ room, roomForRecord rs = some room ∧ room.Sublist rs ∧ (rs.length < 16 → room = rs) ∧
      (16 ≤ rs.length → room = dropLowestReported rs) := by
  by_cases hlen : rs.length < 16
  · exact ⟨rs, if_pos hlen, .refl rs, fun _ => rfl, fun h => by omega⟩
  · refine ⟨dropLowestReported rs, (if_neg hlen).trans (if_pos ?_), dropLowestReported_sublist rs, fun h => absurd h hlen, fun _ => rfl⟩
    rw [List.any_eq_true]
    by_contra hnone
    exact hroom ⟨by omega, fun r hr => Bool.eq_false_iff.2 fun hrep => hnone ⟨r, hr, hrep⟩⟩

/-- R37, R41: the part once the newest record has joined the queue. -/
def withNewest (p : Part) (room : List SleeperRecord) (c : Candidate) : Part :=
  { p with queue := { p.queue with
    records := room ++ [newRecord p.queue.nextNumber c]
    nextNumber := if p.queue.nextNumber = lastNumber then lastNumber else p.queue.nextNumber + 1
    exhausted := decide (p.queue.nextNumber = lastNumber) } }

section
variable {p : Part} {c : Candidate} {room : List SleeperRecord}

theorem recordCandidate_lost (h : p.queue.exhausted = true ∨ roomForRecord p.queue.records = none) :
    recordCandidate p c = handEvent p (.scanOverflow c.centre) := by
  have hno : (if p.queue.exhausted then none else roomForRecord p.queue.records) = none := by
    rcases h with h | h <;> simp [h]
  simp only [recordCandidate, hno]

theorem recordCandidate_made (hex : p.queue.exhausted = false) (hroom : roomForRecord p.queue.records = some room) :
    recordCandidate p c = testStopPoint (renewInPosition
      (passRecord (haltStep (withNewest p room c) (newRecord p.queue.nextNumber c)) p.queue.nextNumber)).1 := by
  simp only [recordCandidate, hex, hroom, Bool.false_eq_true, if_false, withNewest, decide_eq_true_eq]
  rfl

end

/-- Settles O23. -/
theorem candidatesAreRecordedOrLost : Obligations.CandidatesAreRecordedOrLost := by
  unfold Obligations.CandidatesAreRecordedOrLost
  intro p c hl q full
  obtain ⟨-, hrising, hnumbers, -⟩ := hl
  refine ⟨fun hlost => recordCandidate_lost (hlost.imp_right roomForRecord_none), fun hex hroom => ?_⟩
  intro made t
  obtain ⟨room, hsome, hsub, hlow, hfull⟩ := roomForRecord_some hroom
  let p1 := withNewest p room c
  let p2 := haltStep p1 made
  let p3 := passRecord p2 q.nextNumber
  have ht : t = testStopPoint (renewInPosition p3).1 := recordCandidate_made hex hsome
  have hbelow : ∀ x ∈ room, x.number < q.nextNumber := fun x hx => by
    obtain ⟨-, hlt | ⟨hx, -⟩, -⟩ := hnumbers x (hsub.subset hx)
    · exact hlt
    · rw [hex] at hx; cases hx
  have hq1 : p2.queue = _ := haltStep_queue p1 made
  have hrising1 : Rising p2.queue.records := by
    rw [hq1]
    exact List.pairwise_append.2 ⟨hrising.sublist hsub, List.pairwise_singleton _ _, fun x hx y hy => by
      rw [List.mem_singleton.1 hy]; exact hbelow x hx⟩
  have hpass : Passes p2 [q.nextNumber] p3 := passRecord_passes _ hrising1
  have hground2 : p2.ground = p.ground := ground_of_offQueue ((haltStep_offQueue p1 made).trans rfl)
  have hmade : passedAmong p2 [q.nextNumber] made = { made with state := passedState p made } := by
    have hstate : passedState p2 made = passedState p made := by
      unfold passedState
      rw [travel_of_ground hground2, store_of_ground hground2,
        chainageC_of_travel_store (travel_of_ground hground2) (store_of_ground hground2)]
    rw [passedAmong, if_pos (List.mem_singleton.2 rfl), passedRecord, hstate]
    split
    · next hsame => rw [← hsame]
    · rfl
  have hroomStays : ∀ x ∈ room, passedAmong p2 [q.nextNumber] x = x := fun x hx =>
    passedAmong_singleton_of_stay fun hn => absurd hn (hbelow x hx).ne
  have hqueue3 : p3.queue = _ := congrArg Part.queue hpass.frame
  have hq : t.queue = { p3.queue with inPosition := (recordInPosition p3).map (·.number), lastStop := t.queue.lastStop } := by
    rw [ht, testStopPoint_queue]
    rfl
  have hrecords : t.queue.records = room ++ [{ made with state := passedState p made }] := by
    rw [hq, ← hmade]
    show p3.queue.records = _
    rw [hpass.records, hq1]
    show (room ++ [made]).map _ = _
    rw [List.map_append, map_eq_self_iff.2 hroomStays]
    rfl
  have hkept : t.queue = { p1.queue with
      records := t.queue.records, lastStop := t.queue.lastStop, inPosition := t.queue.inPosition
      latch := if c.halt = true ∧ q.latch = none then some q.nextNumber else q.latch } := by
    conv_lhs => rw [hq, hqueue3]
    rw [hq1, hq]
    rfl
  have hoff : t.offQueue = p.offQueue := recordCandidate_offQueue p c
  have hground : t.ground = p.ground := ground_of_offQueue hoff
  have hground3 : p3.ground = p.ground := (ground_of_offQueue (passRecord_offQueue p2 q.nextNumber)).trans hground2
  refine ⟨⟨room, hrecords, fun h => hlow h, fun hlen before r after hsplit hbefore hr => ?_⟩, fun hlast => ?_, fun hlast => ?_,
    ?_, fun hhalt hlatch => ?_, ?_, ?_, ?_, ?_, ?_⟩
  · rw [hfull hlen]
    exact (congrArg dropLowestReported hsplit).trans (dropLowestReported_split hbefore hr)
  · rw [hkept]
    exact ⟨if_neg (by show q.nextNumber ≠ 4294967295; omega), decide_eq_false (by show q.nextNumber ≠ 4294967295; omega)⟩
  · rw [hkept]
    exact ⟨if_pos hlast, decide_eq_true hlast⟩
  · rw [hkept]
  · rw [ht]
    have htold := testStopPoint_haltTold (HaltTold.congr (passRecord_haltTold q.nextNumber
      (haltStep_haltTold (p := p1) (r := made) hhalt hlatch)) (q := (renewInPosition p3).1) rfl rfl)
    have hstore : (testStopPoint (renewInPosition p3).1).store = p.store := ht ▸ store_of_ground hground
    rw [HaltTold, hstore] at htold
    exact htold
  · rw [hq]
    exact congrArg (Option.map SleeperRecord.number) (recordInPosition_congr (p := t) (q := p3) (by rw [hq])
      (travel_of_ground (hground3.trans hground.symm)) (store_of_ground (hground3.trans hground.symm)))
  · rw [ht]
    exact testStopPoint_lastStop _
  · rw [hkept]
    rfl
  · rw [hkept]
    rfl
  · have hframe := part_eq_of_offQueue hoff
    rw [hframe]
    exact ⟨rfl, rfl, rfl, rfl, rfl, rfl⟩

end Sys2Proof.Machine
end

section
/-! PROOF. The settings store: a saved record, SETTING WRITE and READ, STORE SAVE and LOAD, ZERO CAPTURE (R194 to R202). -/

namespace Sys2Proof.Machine
open Sys2Proof Sys2Proof.Safety

/-! ### A record in words (R194, R195) -/

theorem PerChannel.eq_of_get {α : Type} {a b : PerChannel α} (h : ∀ ch, a.get ch = b.get ch) : a = b := by
  obtain ⟨_, _, _, _, _, _, _, _, _, _, _⟩ := a
  obtain ⟨_, _, _, _, _, _, _, _, _, _, _⟩ := b
  simp only [PerChannel.mk.injEq]
  exact ⟨h .ln, h .lvl, h .lvr, h .xl, h .axs, h .dlo, h .dli, h .dri, h .dro, h .pl, h .pr⟩

/-- Two records that agree in every setting are one. -/
theorem Settings.eq_of_get {a b : Settings} (h : ∀ id : SettingId, a.get id = b.get id) : a = b := by
  obtain ⟨_, _, _, _, _, _, _, _, _, _, _, _, _, _, _, _, _, _, _, _, _, _, _, _, _, _, _, _, _, _, _, _⟩ := a
  obtain ⟨_, _, _, _, _, _, _, _, _, _, _, _, _, _, _, _, _, _, _, _, _, _, _, _, _, _, _, _, _, _, _, _⟩ := b
  simp only [Settings.mk.injEq]
  exact ⟨h .pitch, h .standstillInterval, h .scannerOffset, h .a, h .b, h .av, h .bv, h .span, h .maxLift, h .liningLimit,
    h .stepLimit, h .minBody, h .wideLimit, h .longLimit, h .longBodyAction, h .defaultInsertions, h .passMargin,
    h .positionTolerance, h .gainLine, h .gainLiftL, h .gainLiftR, h .gainAux, h .settleTolerance, h .moveTimeout,
    h .releaseTime, h .penetrationDepth, h .squeezeThreshold, h .squeezeTime, h .partNode, h .supervisorNode,
    PerChannel.eq_of_get fun ch => h (.zero ch), PerChannel.eq_of_get fun ch => h (.sensitivity ch)⟩

/-- R194: every setting of a consistent record fits a signed 16-bit word. -/
theorem consistent_word {st : Settings} (h : st.consistent = true) (id : SettingId) :
    (BitVec.ofInt 16 (st.get id)).toInt = st.get id := by
  have hword : -32768 ≤ id.range.1 ∧ id.range.2 ≤ 32767 := by
    cases id <;> simp only [SettingId.range] <;> omega
  have hrange := consistent_range h id
  rw [BitVec.toInt_ofInt]
  exact Int.bmod_eq_of_le (by omega) (by omega)

/-- R195: the record that the words of some settings form has those settings, and the others as they were. -/
theorem get_foldl_set {f : SettingId → Word16} (ids : List SettingId) (st : Settings) (j : SettingId) :
    ((ids.zip (ids.map f)).foldl (fun st iw => st.set iw.1 iw.2.toInt) st).get j = if j ∈ ids then (f j).toInt else st.get j := by
  induction ids generalizing st with
  | nil => rfl
  | cons i ids ih =>
    show ((ids.zip (ids.map f)).foldl (fun st iw => st.set iw.1 iw.2.toInt) (st.set i (f i).toInt)).get j = _
    rw [ih, Settings.get_set]
    by_cases hj : j ∈ ids
    · simp [hj]
    · by_cases hi : j = i
      · simp [hi]
      · simp [hi, hj]

/-- R195: the words of a consistent record form it again. -/
theorem ofWords_toWords {st : Settings} (h : st.consistent = true) : Settings.ofWords st.toWords = st := by
  refine Settings.eq_of_get fun id => ?_
  rw [Settings.ofWords, Settings.toWords, get_foldl_set, if_pos (allSettings_mem id), consistent_word h id]

/-- R195: a checksum makes up the sum of the words. -/
theorem checksum_makes_up (ws : List Word16) : (wordSum ws + (checksumOf ws).toNat) % 65536 = 65535 := by
  rw [checksumOf, BitVec.toNat_ofNat]
  omega

/-- R195, R198: the snapshot of a consistent record is a valid copy. -/
theorem snapshot_valid {st : Settings} (h : st.consistent = true) : copyValid st.snapshot = true := by
  have hlength : st.snapshot.words.length = 52 := rfl
  rw [copyValid, hlength, show st.snapshot.words = st.toWords from rfl, ofWords_toWords h, h]
  simp only [decide_true, Bool.true_and, Bool.and_true, decide_eq_true_eq]
  exact checksum_makes_up st.toWords

section
variable {s : State}

/-- R199: with no save in progress an END_OF_SAVE changes nothing. -/
theorem exec_endOfSave_none (readBack : NvCopy) (hp : s.part.powered = true) (hsave : s.part.store.save = none) :
    exec (.endOfSave readBack) s = .next s := by
  show execEndOfSave readBack s = _
  rw [execEndOfSave, eventOf_powered hp]
  simp only [hsave]
  rfl

theorem exec_endOfSave_some {snapshot : NvCopy} (readBack : NvCopy) (hp : s.part.powered = true)
    (hsave : s.part.store.save = some snapshot) : exec (.endOfSave readBack) s = .next (s.withPart
      (handEvent { s.part with store := savedStore s.part.store snapshot readBack } (.storeDone (decide (readBack = snapshot))))) := by
  show execEndOfSave readBack s = _
  rw [execEndOfSave, eventOf_powered hp]
  simp only [hsave]

theorem exec_powerLoss (left : NvCopy) (hp : s.part.powered = true) :
    exec (.powerLoss left) s = .next (s.withPart (unpowered s.part left)) := by
  show execPowerLoss left s = _
  rw [execPowerLoss, eventOf_powered hp]

theorem exec_powerOn (hp : s.part.powered = false) :
    exec .powerOn s = .next (s.withPart (.afterReset (loadedStore s.part.store.copy) s.part.lines)) := by
  show execPowerOn s = _
  rw [execPowerOn, if_neg (by rw [hp]; nofun)]

end

/-- Settles O54. -/
theorem savedSettingsSurvivePowerLoss : Obligations.SavedSettingsSurvivePowerLoss := by
  unfold Obligations.SavedSettingsSurvivePowerLoss
  intro s left hp ⟨hcon, hsave⟩ snapshot
  refine ⟨rfl, snapshot_valid hcon, ofWords_toWords hcon, fun hsaved => ?_⟩
  let saved := handEvent { s.part with store := savedStore s.part.store snapshot snapshot } (.storeDone true)
  have hend : exec (.endOfSave snapshot) s = .next (s.withPart saved) := by
    rw [exec_endOfSave_some snapshot hp hsaved, decide_eq_true rfl]
  have hpowered : saved.powered = true := (congrArg Ground.powered (handEvent_ground _ _)).trans hp
  have hstore : saved.store = { s.part.store with copy := snapshot, save := none, status := .saved } :=
    (store_of_ground (handEvent_ground _ _)).trans (by simp only [savedStore, if_true])
  let off := unpowered saved left
  have hcopy : off.store.copy = snapshot := by
    show (if saved.store.save.isSome then left else saved.store.copy) = snapshot
    rw [hstore]
    rfl
  have hloaded : loadedStore off.store.copy =
      { working := s.part.store.working, copy := snapshot, save := none, status := .loaded } := by
    refine (congrArg loadedStore hcopy).trans ((if_pos (snapshot_valid hcon)).trans ?_)
    exact congrArg (Store.mk · snapshot none .loaded) (ofWords_toWords hcon)
  refine ⟨s.withPart saved, s.withPart off, s.withPart (.afterReset (loadedStore off.store.copy) off.lines), hend,
    exec_powerLoss left hpowered, exec_powerOn rfl, hloaded, ?_, rfl⟩
  show (loadedStore off.store.copy).working.supervisorNode = _
  rw [hloaded]

/-! ### SETTING WRITE and SETTING READ (R196, R197) -/

section
variable {p : Part}

theorem pitchAllowed_iff : pitchAllowed p = true ↔ p.travel.originState = .none ∨
    (p.travel.motion = .standstill ∧ p.cycle.phase = .idle ∧ p.ctxH.state = .stopped ∧ p.ctxV.state = .stopped) := by
  rw [pitchAllowed, Bool.or_eq_true, Bool.and_eq_true, Bool.and_eq_true, contextsStopped_iff, forall_contextId, decide_eq_true_eq,
    decide_eq_true_eq, decide_eq_true_eq, and_assoc]
  rfl

theorem offsetAllowed_iff : offsetAllowed p = true ↔ p.travel.originState = .none ∨ p.travel.motion = .standstill := by
  rw [offsetAllowed, Bool.or_eq_true, decide_eq_true_eq, decide_eq_true_eq]

theorem rebase_none (h : p.travel.originState = .none) : rebase p = p := by
  unfold rebase
  rw [h]

theorem rebase_set (h : p.travel.originState = .set) :
    rebase p = { p with travel := { p.travel with origin := chainageC p, pulses := 0 } } := by
  unfold rebase
  rw [h]

theorem moveScanFront_none (h : p.travel.originState = .none) : moveScanFront p = p := by
  unfold moveScanFront
  rw [h]

/-- R11: the front after a changed scanner offset: the further ahead of the old front and the scanner point. -/
def frontAfter (d : Direction) (point : Int) : Option Int → Int
  | none => point
  | some front => if 0 < aheadBy d point front then point else front

theorem moveScanFront_set (h : p.travel.originState = .set) : moveScanFront p =
    { p with scanner := scannerReset p.scanner (frontAfter p.travel.direction (scannerPoint p) p.scanner.front) } := by
  unfold moveScanFront
  rw [h]
  rfl

/-- R5: the scanner point lies ahead of C by the scanner offset. -/
theorem scannerPoint_eq (p : Part) : scannerPoint p = chainageC p + dirSign p.travel.direction * p.store.working.scannerOffset := rfl

theorem dirSign_eq (d : Direction) : dirSign d = match d with | .ascending => 1 | .descending => -1 := by cases d <;> rfl

theorem not_busy_of_allowed {allowed : Bool} (h : allowed = true) : (!allowed) = false := by rw [h]; rfl

/-- R196: a setting without an effect of its own is written at any time. -/
theorem settingBusy_plain {id : SettingId}
    (h : id ∉ [SettingId.pitch, .scannerOffset, .positionTolerance, .supervisorNode, .partNode]) : settingBusy p id = false := by
  cases id with
  | pitch | scannerOffset => simp at h
  | _ => rfl

theorem writeSetting_plain {id : SettingId} {v : Int}
    (h : id ∉ [SettingId.pitch, .scannerOffset, .positionTolerance, .supervisorNode, .partNode]) :
    writeSetting p id v = p.withWorking (p.store.working.set id v) := by
  cases id with
  | pitch | scannerOffset | positionTolerance | supervisorNode | partNode => simp at h
  | _ => rfl

end

/-- Settles O52: the refusals in their order, then the effect of each setting that has one. -/
theorem settingsAreWrittenAndRead : Obligations.SettingsAreWrittenAndRead := by
  unfold Obligations.SettingsAreWrittenAndRead
  refine ⟨fun s r rest h hf => ?_, fun s r rest h hf => ?_⟩
  · intro number v p st put reply
    refine ⟨fun hnone => (data_taken h rfl hf).trans (block_refused (st := .badField) ?_), fun id hid => ?_⟩
    · simp only [show settingOfNumber (fieldNat r.fields 0 1) = none from hnone]
    · intro new
      have hexec : exec .settingWrite s = .next (s.withPart (repliedPart s.part.store.working.partNode r
          (if new.consistent = false then .refuse p .badField
          else if p.store.save.isSome then .refuse p .busy
          else if settingBusy p id then .refuse p .busy
          else .ok (writeSetting p id v) reply))) := by
        refine (data_taken h rfl hf).trans (block_answers ?_)
        simp only [show settingOfNumber (fieldNat r.fields 0 1) = some id from hid]
        rfl
      refine ⟨fun hbad => hexec.trans (block_refused (st := .badField) (if_pos hbad)), fun hgood hsave => ?_, fun hgood hsave => ?_⟩
      · refine hexec.trans (block_refused (st := .busy) ((if_neg (by rw [hgood]; nofun)).trans (if_pos ?_)))
        exact Option.isSome_iff_ne_none.2 hsave
      · have hfree : exec .settingWrite s = .next (s.withPart (repliedPart s.part.store.working.partNode r
            (if settingBusy p id then .refuse p .busy else .ok (writeSetting p id v) reply))) :=
          hexec.trans (block_answers ((if_neg (by rw [hgood]; nofun)).trans (if_neg (by rw [hsave]; nofun))))
        have hbusy (hb : settingBusy p id = true) : exec .settingWrite s = .next (refusedWith s r rest 2) :=
          hfree.trans (block_refused (st := .busy) (if_pos hb))
        have hdone {q : Part} (hb : settingBusy p id = false) (hq : writeSetting p id v = q) :
            exec .settingWrite s = .next (replied s q r 0 reply) :=
          hfree.trans (block_ok ((if_neg (by rw [hb]; nofun)).trans (by rw [hq])))
        refine ⟨?_, ?_, ?_, ?_, ?_, ?_, ?_, ?_⟩
        · rintro rfl hset hno
          refine hbusy ?_
          show (!pitchAllowed p) = true
          rw [Bool.not_eq_true', ← Bool.not_eq_true, pitchAllowed_iff, hset]
          rintro (h | ⟨hm, hi, hh, hv⟩)
          · cases h
          · rcases hno with h | h | h | h
            · rw [hm] at h; cases h
            · exact h hi
            · exact h hh
            · exact h hv
        · rintro rfl hset hm
          refine hbusy ?_
          show (!offsetAllowed p) = true
          rw [Bool.not_eq_true', ← Bool.not_eq_true, offsetAllowed_iff, hset, hm]
          rintro (h | h) <;> cases h
        · rintro rfl hset hm hi hh hv
          refine hdone ?_ ?_
          · exact not_busy_of_allowed (pitchAllowed_iff.2 (.inr ⟨hm, hi, hh, hv⟩))
          · show (rebase p).withWorking new = _
            rw [rebase_set hset]
            rfl
        · rintro old rfl hset hm hfront point
          refine hdone (not_busy_of_allowed (offsetAllowed_iff.2 (.inr hm))) ?_
          refine (moveScanFront_set (p := p.withWorking new) hset).trans ?_
          have hpoint : scannerPoint (p.withWorking new) = point := by
            rw [scannerPoint_eq, dirSign_eq, chainageC_congr (p := p) (q := p.withWorking new) rfl rfl]
            rfl
          have hnow : frontAfter (p.withWorking new).travel.direction (scannerPoint (p.withWorking new))
              (p.withWorking new).scanner.front = if 0 < aheadBy p.travel.direction point old then point else old := by
            rw [hpoint, show (p.withWorking new).scanner.front = some old from hfront]
            rfl
          exact congrArg (fun front => { p.withWorking new with scanner := scannerReset p.scanner front }) hnow
        · rintro rfl
          exact hdone rfl rfl
        · rintro rfl hne
          exact hdone rfl (if_neg hne.symm)
        · rintro rfl hne hauth
          exact hdone rfl (if_pos ⟨hne.symm, hauth⟩)
        · rintro (hid | ⟨hnone, rfl | rfl⟩ | ⟨rfl, heq⟩ | ⟨rfl, hstay⟩)
          · refine hdone (settingBusy_plain hid) (writeSetting_plain hid)
          · refine hdone (not_busy_of_allowed (pitchAllowed_iff.2 (.inl hnone))) ?_
            show (rebase p).withWorking new = _
            rw [rebase_none hnone]
            rfl
          · exact hdone (not_busy_of_allowed (offsetAllowed_iff.2 (.inl hnone))) (moveScanFront_none hnone)
          · exact hdone rfl (if_pos heq.symm)
          · exact hdone rfl (if_neg fun ⟨hne, hauth⟩ => hstay.elim (fun he => hne he.symm) fun ha => ha hauth)
  · intro number
    refine ⟨fun hnone => (read_taken h rfl hf).trans (block_refused (st := .badField) ?_), fun id hid =>
      (read_taken h rfl hf).trans (block_ok ?_)⟩
    · simp only [show settingOfNumber (fieldNat r.fields 0 1) = none from hnone]
    · simp only [show settingOfNumber (fieldNat r.fields 0 1) = some id from hid]
      rfl

/-! ### STORE SAVE, STORE LOAD and ZERO CAPTURE (R198 to R201) -/

section
variable {p : Part}

theorem changeRecord_numbers {rs : List SleeperRecord} {n : Nat} {f : SleeperRecord → SleeperRecord}
    (hf : ∀ r, (f r).number = r.number) : (changeRecord rs n f).map (·.number) = rs.map (·.number) := by
  rw [changeRecord, List.map_map]
  refine List.map_congr_left fun r _ => ?_
  show (if r.number = n then f r else r).number = r.number
  split
  · exact hf r
  · rfl

theorem writeTargets_numbers (p : Part) (n : Nat) :
    (writeTargets p n).queue.records.map (·.number) = p.queue.records.map (·.number) := changeRecord_numbers fun _ => rfl

/-- R152: a start event keeps the records' numbers. -/
theorem renewAndStart_numbers (p : Part) :
    (renewAndStart p).queue.records.map (·.number) = p.queue.records.map (·.number) := by
  have hcycle (p : Part) (r : SleeperRecord) :
      (startCycle p r).queue.records.map (·.number) = p.queue.records.map (·.number) := by
    have hstart : (startRecord p r.number).queue.records.map (·.number) = p.queue.records.map (·.number) := by
      unfold startRecord
      split
      · rfl
      · exact changeRecord_numbers fun _ => rfl
    rw [startCycle, (giveMoveStart_runs _ _).queue, beginCycle, testStopPoint_queue]
    exact (writeTargets_numbers _ _).trans hstart
  have hevent (p : Part) : (startEvent p).queue.records.map (·.number) = p.queue.records.map (·.number) := by
    unfold startEvent
    split
    · rfl
    · split
      · rfl
      · split
        · exact hcycle p _
        · rfl
  unfold renewAndStart
  split
  · next q hq => exact (hevent q).trans (by rw [← show (renewInPosition p).1 = q by rw [hq]]; rfl)
  · next q hq => rw [← show (renewInPosition p).1 = q by rw [hq]]; rfl

/-- R181: who holds authority once the node numbers have been replaced. -/
def authorityAfter (p : Part) (new : Settings) : Int :=
  if new.supervisorNode ≠ p.store.working.supervisorNode then new.supervisorNode
  else if new.partNode ≠ p.store.working.partNode ∧ p.port.authority = new.partNode then new.supervisorNode
  else p.port.authority

/-- R200: the part with a copy's record and what each changed setting brings, up to the record in position, its reports still
built from the old part node. -/
def loadedPart (p : Part) (new : Settings) : Part :=
  { p with
    travel := if new.pitch ≠ p.store.working.pitch ∧ p.travel.originState = .set then
        { p.travel with origin := chainageC p, pulses := 0 } else p.travel
    scanner := if new.scannerOffset ≠ p.store.working.scannerOffset ∧ p.travel.originState = .set then
        scannerReset p.scanner (frontAfter p.travel.direction (chainageC p + dirSign p.travel.direction * new.scannerOffset)
          p.scanner.front)
      else p.scanner
    store := { p.store with working := { new with partNode := p.store.working.partNode }, status := .loaded }
    port := { p.port with authority := authorityAfter p new } }

/-- R10, R200: the part with the copy's record and the travel counter that its pitch brings. -/
theorem adopted_eq (p : Part) (new : Settings) : adopted p new = { p with
    travel := if new.pitch ≠ p.store.working.pitch ∧ p.travel.originState = .set then
      { p.travel with origin := chainageC p, pulses := 0 } else p.travel
    store := { p.store with working := { new with partNode := p.store.working.partNode }, status := .loaded } } := by
  unfold adopted
  by_cases hpitch : new.pitch = p.store.working.pitch
  · rw [if_pos hpitch, if_neg fun h => h.1 hpitch]
  · rw [if_neg hpitch]
    cases horigin : p.travel.originState with
    | none => rw [rebase_none horigin, if_neg fun h => nomatch h.2]
    | set => rw [rebase_set horigin, if_pos ⟨hpitch, rfl⟩]

theorem adopted_direction (p : Part) (new : Settings) : (adopted p new).travel.direction = p.travel.direction ∧
    (adopted p new).travel.originState = p.travel.originState := by
  rw [adopted_eq]
  show (ite _ _ _ : Travel).direction = _ ∧ (ite _ _ _ : Travel).originState = _
  split <;> exact ⟨rfl, rfl⟩

/-- R10: a re-based part stands where it stood. -/
theorem chainageC_adopted (p : Part) (new : Settings) : chainageC (adopted p new) = chainageC p := by
  cases horigin : p.travel.originState with
  | none => rw [chainageC_none horigin, chainageC_none ((adopted_direction p new).2.trans horigin)]
  | set =>
    rw [adopted_eq]
    by_cases hpitch : new.pitch = p.store.working.pitch
    · rw [if_neg fun h => h.1 hpitch]
      exact chainageC_congr rfl hpitch
    · rw [if_pos ⟨hpitch, horigin⟩]
      refine (chainageC_set (by exact horigin)).trans ?_
      exact chainageOf_zero { p.travel with origin := chainageC p, pulses := 0 } new.pitch

/-- R11: the scanner that a changed offset leaves. -/
theorem moveScanFront_eq (q : Part) : moveScanFront q = { q with
    scanner := if q.travel.originState = .set then
      scannerReset q.scanner (frontAfter q.travel.direction (scannerPoint q) q.scanner.front) else q.scanner } := by
  cases horigin : q.travel.originState with
  | none => rw [moveScanFront_none horigin, if_neg nofun]
  | set => rw [moveScanFront_set horigin, if_pos rfl]

/-- R181: who holds authority once both node numbers have been replaced. -/
theorem passNodes_eq (q : Part) (old new : Settings) (hsupervisor : q.store.working.supervisorNode = new.supervisorNode) :
    passFromPart (passToSupervisor q old.supervisorNode new.supervisorNode) old.partNode new.partNode =
      { q with port := { q.port with
        authority := if new.supervisorNode ≠ old.supervisorNode then new.supervisorNode
          else if new.partNode ≠ old.partNode ∧ q.port.authority = new.partNode then new.supervisorNode
          else q.port.authority } } := by
  unfold passToSupervisor passFromPart
  by_cases hsame : old.supervisorNode = new.supervisorNode
  · rw [if_pos hsame, if_neg (not_not.2 hsame.symm)]
    by_cases hpart : old.partNode ≠ new.partNode ∧ q.port.authority = new.partNode
    · rw [if_pos hpart, if_pos ⟨hpart.1.symm, hpart.2⟩, hsupervisor]
      rfl
    · rw [if_neg hpart, if_neg fun h => hpart ⟨h.1.symm, h.2⟩]
  · rw [if_neg hsame, if_pos fun h => hsame h.symm]
    split
    · rw [show (setAuthority q new.supervisorNode).store = q.store from rfl, hsupervisor]
      rfl
    · rfl

/-- R200: what a load makes of the part. -/
theorem adoptSettings_loaded (p : Part) (new : Settings) :
    let renewed := if new.positionTolerance ≠ p.store.working.positionTolerance then renewAndStart (loadedPart p new)
      else loadedPart p new
    adoptSettings p new = { renewed with store := { p.store with working := new, status := .loaded } } := by
  intro renewed
  have hscanner : (adopted p new).scanner = p.scanner := by rw [adopted_eq]
  have hpoint : scannerPoint (adopted p new) = chainageC p + dirSign p.travel.direction * new.scannerOffset := by
    rw [scannerPoint_eq, chainageC_adopted, (adopted_direction p new).1, adopted_eq]
  have hmoved : (if new.scannerOffset = p.store.working.scannerOffset then adopted p new else moveScanFront (adopted p new)) =
      { adopted p new with scanner := (loadedPart p new).scanner } := by
    by_cases hoffset : new.scannerOffset = p.store.working.scannerOffset
    · rw [if_pos hoffset, show (loadedPart p new).scanner = p.scanner from if_neg fun h => h.1 hoffset, ← hscanner]
    · rw [if_neg hoffset, moveScanFront_eq, hpoint, hscanner, (adopted_direction p new).1, (adopted_direction p new).2]
      refine congrArg (fun sc => { adopted p new with scanner := sc }) ?_
      exact (if_congr (and_iff_right hoffset) rfl rfl).symm
  have hpassed : passFromPart (passToSupervisor { adopted p new with scanner := (loadedPart p new).scanner }
      p.store.working.supervisorNode new.supervisorNode) p.store.working.partNode new.partNode = loadedPart p new := by
    rw [passNodes_eq _ _ _ (by rw [adopted_eq]), adopted_eq]
    rfl
  have hrenewed : (if new.positionTolerance = p.store.working.positionTolerance then loadedPart p new
      else renewAndStart (loadedPart p new)) = renewed := (ite_not _ _ _).symm
  have hstore : renewed.store = (loadedPart p new).store := by
    show (ite _ _ _ : Part).store = _
    split
    · exact store_of_ground (renewAndStart_ground _)
    · rfl
  rw [adoptSettings_eq]
  simp only [hmoved, hpassed, hrenewed]
  rw [Part.withWorking, hstore]
  rfl

/-- R200: a start event at the end of a load keeps what the load has made of the other blocks. -/
theorem adoptSettings_kept (p : Part) (new : Settings) :
    { (adoptSettings p new).ground with store := (loadedPart p new).store } = (loadedPart p new).ground ∧
    (adoptSettings p new).port.authority = authorityAfter p new ∧
    (adoptSettings p new).queue.records.map (·.number) = p.queue.records.map (·.number) := by
  rw [adoptSettings_loaded]
  by_cases htolerance : new.positionTolerance ≠ p.store.working.positionTolerance
  · rw [if_pos htolerance]
    have hground := renewAndStart_ground (loadedPart p new)
    refine ⟨?_, ((closed_moves _).renewAndStart (p := loadedPart p new) .refl).kept.2.2.1, renewAndStart_numbers _⟩
    rw [← hground]
    exact congrArg (fun st => { (renewAndStart (loadedPart p new)).ground with store := st }) (store_of_ground hground).symm
  · rw [if_neg htolerance]
    exact ⟨rfl, rfl, rfl⟩

theorem loadBusy_iff (new : Settings) : loadBusy p new = true ↔ p.travel.originState = .set ∧
    ((new.pitch ≠ p.store.working.pitch ∧
        ¬ (p.travel.motion = .standstill ∧ p.cycle.phase = .idle ∧ p.ctxH.state = .stopped ∧ p.ctxV.state = .stopped)) ∨
      (new.scannerOffset ≠ p.store.working.scannerOffset ∧ p.travel.motion = .moving)) := by
  have hmotion : p.travel.motion = .moving ↔ ¬ p.travel.motion = .standstill := by
    cases p.travel.motion <;> simp
  have horigin : p.travel.originState = .set ↔ ¬ p.travel.originState = .none := by
    cases p.travel.originState <;> simp
  rw [loadBusy, Bool.or_eq_true, Bool.and_eq_true, Bool.and_eq_true, decide_eq_true_eq, decide_eq_true_eq, Bool.not_eq_true',
    Bool.not_eq_true', ← Bool.not_eq_true, ← Bool.not_eq_true, pitchAllowed_iff, offsetAllowed_iff, hmotion, horigin]
  tauto

end

/-- Settles O53. -/
theorem theStoreSavesLoadsAndCaptures : Obligations.TheStoreSavesLoadsAndCaptures := by
  unfold Obligations.TheStoreSavesLoadsAndCaptures
  refine ⟨fun s r rest h hf => ?_, fun s readBack hp => ?_, fun s r rest h hf => ?_, fun s r rest h hf => ?_⟩
  · refine ⟨fun hbusy => (data_taken h rfl hf).trans (block_refused (st := .busy) (if_pos ?_)), fun hsave hidle =>
      (data_taken h rfl hf).trans (block_ok (if_neg ?_))⟩
    · exact hbusy.imp_left Option.isSome_iff_ne_none.2
    · rintro (hs | hi)
      · exact Option.isSome_iff_ne_none.1 hs hsave
      · exact hi hidle
  · refine ⟨exec_endOfSave_none readBack hp, fun snapshot hsave => ?_⟩
    intro ok
    rw [exec_endOfSave_some readBack hp hsave]
    have hstatus : (if readBack = snapshot then StoreStatus.saved else .fault) = if ok then .saved else .fault := by
      simp only [ok, decide_eq_true_eq]
    rw [savedStore, hstatus]
  · intro p old new stopped
    have hfree (hsave : p.store.save = none) (hidle : p.cycle.phase = .idle) :
        ¬ (p.store.save.isSome = true ∨ p.cycle.phase ≠ .idle) := by
      rintro (hs | hi)
      · rw [hsave] at hs; cases hs
      · exact hi hidle
    have hvalid (hv : copyValid p.store.copy = true) : ¬ copyValid p.store.copy = false := by rw [hv]; nofun
    refine ⟨fun hbusy => (data_taken h rfl hf).trans (block_refused (st := .busy) (if_pos (hbusy.imp_left
      Option.isSome_iff_ne_none.2))), fun hsave hidle hbad => ?_, fun hsave hidle hgood hset hno => ?_,
      fun hsave hidle hgood hyes => ⟨adoptSettings p new, ?_, ?_⟩⟩
    · refine (data_taken h rfl hf).trans ((block_answers ((if_neg (hfree hsave hidle)).trans (if_pos hbad))).trans ?_)
      exact congrArg Host.Outcome.next (repliedPart_refuse s _ r _)
    · refine (data_taken h rfl hf).trans (block_refused (st := .busy) ((if_neg (hfree hsave hidle)).trans
        ((if_neg (hvalid hgood)).trans (if_pos ((loadBusy_iff new).2 ⟨hset, hno.imp_left fun ⟨hp, hs⟩ => ⟨hp, fun hall => hs ?_⟩⟩)))))
      exact ⟨hall.1, hall.2.2⟩
    · refine (data_taken h rfl hf).trans (block_ok ((if_neg (hfree hsave hidle)).trans ((if_neg (hvalid hgood)).trans (if_neg ?_))))
      rw [loadBusy_iff]
      rintro ⟨hset, hno⟩
      rcases hyes with hnone | ⟨hpitch, hoffset⟩
      · rw [hset] at hnone; cases hnone
      · rcases hno with ⟨hne, hno⟩ | ⟨hne, hmoving⟩
        · exact hno ((hpitch.resolve_left hne).1 |> fun hm => ⟨hm, hidle, (hpitch.resolve_left hne).2⟩)
        · rw [hoffset.resolve_left hne] at hmoving; cases hmoving
    · obtain ⟨hground, hauthority, hnumbers⟩ := adoptSettings_kept p new
      have htravel : (adoptSettings p new).travel = (loadedPart p new).travel := congrArg Ground.travel hground
      have hscanner : (adoptSettings p new).scanner = (loadedPart p new).scanner := congrArg Ground.scanner hground
      have hadopted : (loadedPart p new).travel = (adopted p new).travel := by rw [adopted_eq]; rfl
      have hpitch : (adopted p new).store.working.pitch = new.pitch := by rw [adopted_eq]
      refine ⟨adoptSettings_loaded p new, adoptSettings_store p new, ?_, ?_, hnumbers, fun heq => ?_, fun hstay => ?_,
        fun hne hset => ?_, hauthority, fun heq => ?_, congrArg Ground.plan hground, congrArg Ground.corr hground,
        congrArg Ground.trim hground, congrArg Ground.history hground⟩
      · rw [← chainageC_adopted p new]
        refine chainageC_congr (htravel.trans hadopted) ?_
        rw [hpitch, adoptSettings_store]
      · rw [htravel, hadopted, (adopted_direction p new).1]
      · exact htravel.trans (if_neg fun hno => hno.1 heq)
      · refine hscanner.trans (if_neg fun ⟨hne, hset⟩ => ?_)
        rcases hstay with heq | hnone
        · exact hne heq
        · rw [hset] at hnone; cases hnone
      · rw [hscanner, show (loadedPart p new).scanner = _ from if_pos ⟨hne, hset⟩]
        exact ⟨rfl, rfl, rfl⟩
      · have hsame : adoptSettings p new = { loadedPart p new with store := { p.store with working := new, status := .loaded } } :=
          (adoptSettings_loaded p new).trans (congrArg
            (fun q : Part => { q with store := { p.store with working := new, status := .loaded } }) (if_neg (not_not.2 heq)))
        rw [hsame]
        exact ⟨rfl, rfl, rfl⟩
  · intro p code
    have hexec {ch : Channel} (hch : channelOfCode code = some ch) : exec .zeroCapture s =
        .next (s.withPart (repliedPart s.part.store.working.partNode r
          (if p.store.save.isSome then .refuse p .busy
          else if p.travel.motion ≠ .standstill ∨ p.cycle.phase ≠ .idle then .refuse p .badState
          else .ok (p.withWorking (p.store.working.set (.zero ch) (meanCount (p.history.get ch))))
            (settingFields code (meanCount (p.history.get ch)))))) := by
      refine (data_taken h rfl hf).trans (block_answers ?_)
      simp only [show channelOfCode (fieldNat r.fields 0 1) = some ch from hch]
      rfl
    have hsome (hcode : code ≤ 10) : ∃ ch, channelOfCode code = some ch :=
      ⟨_, List.getElem?_eq_getElem (show code < allChannels.length from Nat.lt_succ_of_le hcode)⟩
    refine ⟨fun hcode => ?_, fun hcode hsave => ?_, fun hcode hsave hbusy => ?_, fun ch hch hsave hstill hidle => ?_⟩
    · have hnone : channelOfCode (fieldNat r.fields 0 1) = none :=
        List.getElem?_eq_none (show allChannels.length ≤ code from hcode)
      refine (data_taken h rfl hf).trans (block_refused (st := .badField) ?_)
      simp only [hnone]
    · obtain ⟨ch, hch⟩ := hsome hcode
      exact (hexec hch).trans (block_refused (st := .busy) (if_pos (Option.isSome_iff_ne_none.2 hsave)))
    · obtain ⟨ch, hch⟩ := hsome hcode
      refine (hexec hch).trans (block_refused (st := .badState) ((if_neg (by rw [hsave]; nofun)).trans (if_pos ?_)))
      exact hbusy.imp_left fun hm => by rw [hm]; nofun
    · refine (hexec hch).trans (block_ok ((if_neg (by rw [hsave]; nofun)).trans (if_neg ?_)))
      rintro (hm | hi)
      · exact hm hstill
      · exact hi hidle

end Sys2Proof.Machine
end

section
/-! PROOF. Lockout, the raise timeouts, CYCLE STOP and the emergency stop line (R39, R144, R159 to R170). -/

namespace Sys2Proof.Machine
open Sys2Proof Sys2Proof.Safety

/-! ### A change of the controller and the queue's hand-ons pass one another -/

section
variable {p : Part}

theorem releaseDrive_withCycle (p : Part) (c : Cycle) : releaseDrive (p.withCycle c) = (releaseDrive p).withCycle c := by
  by_cases h : (p.drive.anyStarted && p.drive.releaseTimer.isNone) = true
  · rw [show releaseDrive p = _ from if_pos h, show releaseDrive (p.withCycle c) = _ from if_pos h]
    rfl
  · rw [show releaseDrive p = p from if_neg h, show releaseDrive (p.withCycle c) = p.withCycle c from if_neg h]

theorem releaseDrive_queue (p : Part) : (releaseDrive p).queue = p.queue := by
  unfold releaseDrive
  split <;> rfl

theorem handStop_withCycle (p : Part) (r : StopReport) (c : Cycle) :
    handStop (p.withCycle c) r = (handStop p r).withCycle c := by
  have hp : handStop p r = { p with port := (handStop p r).port } := part_eq_of_offPort (handStop_offPort p r)
  have hc : handStop (p.withCycle c) r = { p with cycle := c, port := (handStop p r).port } :=
    afterHandOn_congr (p := { p with cycle := c, port := { p.port with stop := some r } })
      (q := { p with port := { p.port with stop := some r } }) rfl rfl
  rw [hc, hp]
  rfl

theorem testStopPoint_withCycle (p : Part) (c : Cycle) : testStopPoint (p.withCycle c) = (testStopPoint p).withCycle c := by
  have hsame : stopPointOf (p.withCycle c) = stopPointOf p := stopPointOf_congr rfl rfl rfl rfl
  unfold testStopPoint
  rw [hsame]
  refine (if_congr Iff.rfl rfl (handStop_withCycle { p with queue := { p.queue with lastStop := stopPointOf p } } _ c)).trans ?_
  exact (apply_ite (Part.withCycle · c) _ _ _).symm

theorem testStopPoint_cycle (p : Part) : (testStopPoint p).cycle = p.cycle := cycle_of_offQueue (testStopPoint_offQueue p)

end

/-! ### The record in cycle at the end of a cycle (R39, R164) -/

/-- R39: the part whose record n has ended FAILED, before the stop point is tested. -/
def withFailed (p : Part) (n : Nat) (cause : FailureCause) : Part :=
  { p with queue := { p.queue with
    aside := none
    records := p.queue.records.map fun r =>
      if r.number = n then { r with state := .failed, failure := some cause, reported := false } else r } }

/-- R39, R43: the part whose record n has been put back as it was kept aside, before the stop point is tested. -/
def withPutBack (p : Part) (n : Nat) (k : Aside) : Part :=
  { p with queue := { p.queue with
    aside := none
    records := trimHistory (p.queue.records.map fun x => if x.number = n then
      { x with state := k.state, tampCount := k.tampCount, reported := k.reported, failure := k.failure } else x) } }

section
variable {p : Part} {n : Nat}

theorem failCurrent_some (cause : FailureCause) (h : p.cycle.current = some n) :
    failCurrent p cause = testStopPoint (withFailed p n cause) := by
  unfold failCurrent
  rw [h]
  rfl

theorem putBackCurrent_some {k : Aside} (h : p.cycle.current = some n) (hk : p.queue.aside = some k) :
    putBackCurrent p = (renewInPosition (testStopPoint (withPutBack p n k))).1 := by
  unfold putBackCurrent putBackRecord
  rw [h]
  simp only [hk]
  rfl

theorem failCurrent_none (cause : FailureCause) (h : p.cycle.current = none) : failCurrent p cause = p := by
  unfold failCurrent
  rw [h]

theorem putBackCurrent_none (h : p.cycle.current = none) : putBackCurrent p = p := by
  unfold putBackCurrent
  rw [h]

/-! ### Clear units, raises and the lockout raise (R159, R164, R167) -/

theorem not_allClear_iff (p : Part) : allClear p = false ↔ ∃ u, 200 < unitDepth p u := by
  rw [← Bool.not_eq_true, allClear_iff]
  push Not
  rfl

theorem raiseDemands_get (p : Part) (w : TampUnit) :
    (raiseDemands p).get w = if unitDepth p w ≤ 200 then .rest else .raise := by
  simp only [raiseDemands, PerUnit.get_make, unitClear_eq, decide_eq_true_eq]

/-- R159: the part at the end of its raise. -/
def withRaiseEnded (p : Part) : Part :=
  { p with cycle := { p.cycle with phaseTimer := none, vertical := ⟨.rest, .rest, .rest, .rest⟩ } }

theorem endRaise_penetrates {f : Part → Part} (hstop : p.cycle.stopRequested = .none)
    (hmore : ∃ v, p.cycle.values = some v ∧ p.cycle.insertionsDone < v.insertions) : endRaise f p = f (withRaiseEnded p) := by
  obtain ⟨v, hv, hlt⟩ := hmore
  refine if_pos ⟨hstop, ?_⟩
  show p.cycle.insertionsDone < (p.cycle.values.map (·.insertions)).getD 0
  rw [hv]
  exact hlt

theorem endRaise_releases {f : Part → Part} (h : p.cycle.stopRequested ≠ .none ∨
    ∀ v, p.cycle.values = some v → v.insertions ≤ p.cycle.insertionsDone) : endRaise f p = enterReleasing (withRaiseEnded p) := by
  refine if_neg fun ⟨hstop, hlt⟩ => h.elim (fun hne => hne hstop) fun hdone => ?_
  have hlt' : p.cycle.insertionsDone < (p.cycle.values.map (·.insertions)).getD 0 := hlt
  cases hv : p.cycle.values with
  | none => rw [hv] at hlt'; exact absurd hlt' (Nat.not_lt_zero _)
  | some v => rw [hv] at hlt'; exact absurd hlt' (not_lt.2 (hdone v hv))

theorem enterRaising_low (h : allClear p = false) : enterRaising p = { p with cycle := { p.cycle with
    phase := .raising, squeeze := noSqueeze, phaseTimer := some .raise, vertical := raiseDemands p } } := by
  unfold enterRaising enterRaisingWith
  exact if_neg (by rw [allClear_withCycle, h]; nofun)

theorem enterRaising_clear (h : allClear p = true) : enterRaising p = endRaise enterPenetrating { p with cycle :=
    { p.cycle with phase := .raising, squeeze := noSqueeze, phaseTimer := some .raise, vertical := raiseDemands p } } := by
  unfold enterRaising enterRaisingWith
  exact if_pos h

theorem afterLockoutDepth_low (h : allClear p = false) : afterLockoutDepth p = p := if_neg (by rw [h]; nofun)

theorem afterLockoutDepth_clear (h : allClear p = true) : afterLockoutDepth p = { p with cycle := { p.cycle with
    vertical := noVertical, lockoutRaise := false
    phaseTimer := if p.cycle.lockoutRaise then none else p.cycle.phaseTimer, fold := noArms } } := if_pos h

theorem addCause_held {c : Cause} (h : p.cycle.causes.has c = true) {n : Option Nat} : addCause p c n = p := if_pos h

theorem addCause_new {c : Cause} (h : p.cycle.causes.has c = false) {n : Option Nat} : addCause p c n =
    handEvent { p with cycle := { p.cycle with causes := p.cycle.causes.add c } } (.lockout (p.cycle.causes.add c) c n) :=
  if_neg (by rw [h]; nofun)

/-- R166, R170: LOCKOUT is entered by a controller that drops its sleeper. -/
theorem enterLockout_dropped (p : Part) (c : Cause) (n : Option Nat) : enterLockout (dropCurrent p) c n =
    handEvent { p with cycle := { p.cycle with
      phase := .lockout, causes := p.cycle.causes.add c, current := none, values := none, stopRequested := .none } }
      (.lockout (p.cycle.causes.add c) c n) := rfl

end

/-- Settles O48. -/
theorem raiseTimeoutsLockOut : Obligations.RaiseTimeoutsLockOut := by
  unfold Obligations.RaiseTimeoutsLockOut
  intro s hp p clear rest
  have hraise : exec .raiseTimeout s = .next (s.withPart (if p.cycle.phase = .raising ∧ p.cycle.phaseTimer = some .raise then
      if allClear p then endRaise enterPenetrating p else stuckFault p else p)) := eventOf_powered hp
  have hlockout : exec .lockoutRaiseTimeout s = .next (s.withPart (if p.cycle.phase = .lockout ∧ p.cycle.lockoutRaise = true ∧
      p.cycle.phaseTimer = some .raise then if allClear p then afterLockoutDepth p else lockoutRaiseStuck p else p)) :=
    eventOf_powered hp
  have hlow (h : ¬ clear) : allClear p = false := by rw [← Bool.not_eq_true, allClear_iff]; exact h
  refine ⟨fun hno => ?_, fun n hphase htimer hcur hnot => ?_, fun hphase htimer hclear => ?_, fun hno => ?_,
    fun hphase hrun htimer => ?_⟩
  · rw [hraise, if_neg (by tauto)]
    rfl
  · intro held failed causes
    rw [hraise, if_pos ⟨hphase, htimer⟩, if_neg (by rw [hlow hnot]; nofun)]
    refine congrArg (fun q => Host.Outcome.next (s.withPart q)) ?_
    have hrelease : (releaseDrive held).cycle = held.cycle := releaseDrive_phase held
    have hfailed : failCurrent (releaseDrive held) .unitStuck = failed := by
      rw [failCurrent_some _ (by rw [hrelease]; exact hcur), withFailed, releaseDrive_queue]
    show enterLockout (dropCurrent (failCurrent (releaseDrive held) .unitStuck)) .unitStuck p.cycle.current = _
    have hcycle : failed.cycle = held.cycle := (testStopPoint_cycle _).trans hrelease
    rw [hfailed, enterLockout_dropped, hcycle, hcur]
    rfl
  · intro r
    have hall : allClear p = true := (allClear_iff p).2 hclear
    rw [hraise, if_pos ⟨hphase, htimer⟩, if_pos hall]
    exact ⟨fun hstop hmore => by rw [endRaise_penetrates hstop hmore]; rfl, fun hend => by rw [endRaise_releases hend]; rfl⟩
  · rw [hlockout, if_neg (by rintro ⟨h1, h2, h3⟩; rcases hno with h | h | h <;> simp_all)]
    rfl
  · intro stopped causes
    rw [hlockout, if_pos ⟨hphase, hrun, htimer⟩]
    refine ⟨fun hclear => ?_, fun hnot hheld => ?_, fun hnot hnew => ?_⟩
    · have hall : allClear p = true := (allClear_iff p).2 hclear
      rw [if_pos hall, afterLockoutDepth_clear hall, hrun]
      rfl
    · rw [if_neg (by rw [hlow hnot]; nofun), lockoutRaiseStuck, addCause_held (by exact hheld)]
      rfl
    · rw [if_neg (by rw [hlow hnot]; nofun), lockoutRaiseStuck, addCause_new (by exact hnew)]
      rfl

/-! ### UNITS RAISE and FAULT CLEAR (R167 to R169) -/

/-- Settles O50. -/
theorem unitsRaiseAndFaultClear : Obligations.UnitsRaiseAndFaultClear := by
  unfold Obligations.UnitsRaiseAndFaultClear
  refine ⟨fun s r rest h hf => ?_, fun s r rest h hf => ?_⟩
  · intro p
    have hexec (hphase : p.cycle.phase = .lockout) (hline : p.lines.estop = false) {q : Part} (hq : raiseUnits p = q) :
        exec .unitsRaise s = .next (replied s q r 0 []) := by
      refine (control_taken h rfl hf).trans (block_ok ((if_neg ?_).trans (congrArg (Answer.ok · []) hq)))
      rintro (hno | hon)
      · exact hno hphase
      · rw [show (found s.part r rest).lines.estop = false from hline] at hon; cases hon
    refine ⟨fun hno => (control_taken h rfl hf).trans (block_refused (st := .badState) (if_pos hno)),
      fun hphase hline hrun => hexec hphase hline (if_pos hrun), fun u hphase hline hrun hu => ?_, fun hphase hline hrun hall => ?_⟩
    · refine ⟨raiseDemands p, raiseDemands_get p, hexec hphase hline ((if_neg (by rw [hrun]; nofun)).trans ?_)⟩
      exact afterLockoutDepth_low ((not_allClear_iff p).2 ⟨u, hu⟩)
    · refine hexec hphase hline ((if_neg (by rw [hrun]; nofun)).trans ?_)
      exact afterLockoutDepth_clear ((allClear_iff p).2 hall)
  · intro p
    refine ⟨fun hidle => ?_, fun hbusy => ?_, fun hphase hno => ?_, fun hphase hline hall => ?_⟩
    · refine (control_taken h rfl hf).trans (block_ok ?_)
      simp only [show (found s.part r rest).cycle.phase = .idle from hidle]
      rfl
    · refine (control_taken h rfl hf).trans (block_refused (st := .badState) ?_)
      simp only [List.mem_cons, List.not_mem_nil, or_false] at hbusy
      rcases hbusy with hb | hb | hb | hb | hb <;> simp only [show (found s.part r rest).cycle.phase = _ from hb]
    · refine (control_taken h rfl hf).trans (block_refused (st := .badState) ?_)
      simp only [show (found s.part r rest).cycle.phase = .lockout from hphase]
      exact if_pos (hno.imp_right (not_allClear_iff p).2)
    · refine (control_taken h rfl hf).trans (block_ok ?_)
      simp only [show (found s.part r rest).cycle.phase = .lockout from hphase]
      refine (if_neg ?_).trans rfl
      rintro (hon | hlow)
      · rw [show (found s.part r rest).lines.estop = false from hline] at hon; cases hon
      · rw [(allClear_iff p).2 hall] at hlow; cases hlow

/-! ### CYCLE STOP (R162) -/

section
variable {p : Part}

/-- R39, R162: a cycle in POSITIONING is abandoned, and its record put back. -/
theorem abandonCycle_eq {n : Nat} {k : Aside} (hcur : p.cycle.current = some n) (hk : p.queue.aside = some k) :
    let restored := testStopPoint { releaseDrive p with queue := (withPutBack p n k).queue }
    abandonCycle p = { restored with
      queue := { restored.queue with inPosition := (recordInPosition restored).map (·.number) }
      cycle := { p.cycle with phase := .idle, current := none, values := none, stopRequested := .none, phaseTimer := none,
                              fold := noArms } } := by
  intro restored
  have hrestored : testStopPoint (withPutBack (releaseDrive (p.withCycle { p.cycle with fold := noArms, phaseTimer := none })) n k) =
      restored.withCycle { p.cycle with fold := noArms, phaseTimer := none } := by
    have hput : withPutBack (releaseDrive p) n k = { releaseDrive p with queue := (withPutBack p n k).queue } := by
      simp only [withPutBack, releaseDrive_queue]
    rw [releaseDrive_withCycle]
    exact (testStopPoint_withCycle (withPutBack (releaseDrive p) n k) _).trans (by rw [hput]; rfl)
  have hput : putBackCurrent (releaseDrive (p.withCycle { p.cycle with fold := noArms, phaseTimer := none })) =
      (renewInPosition (restored.withCycle { p.cycle with fold := noArms, phaseTimer := none })).1 := by
    rw [putBackCurrent_some (n := n) (k := k) (by rw [releaseDrive_phase]; exact hcur) (by rw [releaseDrive_queue]; exact hk), hrestored]
  unfold abandonCycle
  simp only [hput]
  rfl

end

/-- Settles O49. -/
theorem cycleStopEndsTheCycle : Obligations.CycleStopEndsTheCycle := by
  unfold Obligations.CycleStopEndsTheCycle
  intro s r rest h hf p
  have hexec {q : Part} (hq : stopCycle p = q) : exec .cycleStop s = .next (replied s q r 0 []) :=
    (control_taken h rfl hf).trans (block_ok (congrArg (Answer.ok · []) hq))
  have hsecond (hphase : p.cycle.phase ∈ [CyclePhase.penetrating, .squeezing, .raising]) (hstop : p.cycle.stopRequested ≠ .none) :
      stopCycle p = p := by
    simp only [List.mem_cons, List.not_mem_nil, or_false] at hphase
    unfold stopCycle
    rcases hphase with hp | hp | hp <;> rw [hp] <;> exact if_neg hstop
  have hfirst (hphase : p.cycle.phase = .penetrating ∨ p.cycle.phase = .squeezing) (hstop : p.cycle.stopRequested = .none) :
      stopCycle p = enterRaising (p.withCycle { p.cycle with stopRequested := .stopped }) := by
    unfold stopCycle
    rcases hphase with hp | hp <;> rw [hp] <;> exact if_pos hstop
  refine ⟨fun hphase => hexec ?_, fun hphase hstop => hexec (hsecond hphase hstop), fun hphase hstop => hexec ?_,
    fun u hphase hstop hu => ⟨raiseDemands p, raiseDemands_get p, hexec ?_⟩, fun hphase hstop hall => hexec ?_,
    fun n k hphase hcur hk => hexec ?_⟩
  · simp only [List.mem_cons, List.not_mem_nil, or_false] at hphase
    unfold stopCycle
    rcases hphase with hp | hp | hp <;> rw [hp]
  · unfold stopCycle
    rw [hphase]
    exact if_pos hstop
  · rw [hfirst hphase hstop]
    exact enterRaising_low (p := p.withCycle { p.cycle with stopRequested := .stopped }) ((not_allClear_iff p).2 ⟨u, hu⟩)
  · refine (hfirst hphase hstop).trans ((enterRaising_clear (p := p.withCycle { p.cycle with stopRequested := .stopped })
      ((allClear_iff p).2 hall)).trans ?_)
    exact endRaise_releases (.inl nofun)
  · have habandon : stopCycle p = abandonCycle p := by
      unfold stopCycle
      rw [hphase]
    exact habandon.trans (abandonCycle_eq hcur hk)

/-! ### The emergency stop line (R39, R144, R165) -/

section
variable {p : Part}

/-- R144, R165: the outputs and the drive at rest with the line asserted. -/
def atStop (p : Part) : Part := outputsRested (setEstopLine p true)

theorem atStop_eq (p : Part) : atStop p = { p with
    lines := { p.lines with estop := true }
    drive := { axes := ⟨.rest, .rest, .rest, .rest⟩, clampEngaged := false, releaseTimer := none }
    cycle := { p.cycle with
      phaseTimer := none, lockoutRaise := false, vertical := noVertical, squeeze := noSqueeze, fold := noArms } } := rfl

/-- R165: the controller once the line has been asserted, without its new cause. -/
def stoppedCycle (p : Part) : Cycle :=
  { (atStop p).cycle with phase := .lockout, current := none, values := none, stopRequested := .none }

/-- R170: the part when LOCKOUT is entered, or held, at the assertion, and EVENT LOCKOUT is handed on. -/
def lockedByStop (p q : Part) (sleeper : Option Nat) : Part :=
  handEvent { q with cycle := { stoppedCycle p with causes := p.cycle.causes.add .estop } }
    (.lockout (p.cycle.causes.add .estop) .estop sleeper)

theorem cycleEstop_locks {q : Part} (hphase : p.cycle.phase ≠ .lockout) (hq : estopRecord (setEstopLine p true) = q)
    (hcycle : q.cycle = (atStop p).cycle) : cycleEstop (setEstopLine p true) = lockedByStop p q p.cycle.current := by
  have hnot : ¬ q.cycle.phase = .lockout := by rw [hcycle]; exact hphase
  rw [cycleEstop_eq, hq, if_neg hnot, enterLockout_dropped, hcycle]
  rfl

theorem cycleEstop_fails {n : Nat} (hphase : p.cycle.phase ≠ .lockout) (hcur : p.cycle.current = some n)
    (hbegun : p.cycle.penetrationBegun = true) :
    cycleEstop (setEstopLine p true) = lockedByStop p (testStopPoint (withFailed (atStop p) n .estop)) (some n) := by
  rw [← hcur]
  refine cycleEstop_locks hphase ((if_pos hbegun).trans (failCurrent_some .estop hcur)) (testStopPoint_cycle _)

theorem cycleEstop_putsBack {n : Nat} {k : Aside} (hphase : p.cycle.phase ≠ .lockout) (hcur : p.cycle.current = some n)
    (hbegun : p.cycle.penetrationBegun = false) (hk : p.queue.aside = some k) :
    cycleEstop (setEstopLine p true) =
      lockedByStop p (renewInPosition (testStopPoint (withPutBack (atStop p) n k))).1 (some n) := by
  rw [← hcur]
  exact cycleEstop_locks hphase ((if_neg (by exact ne_true_of_eq_false hbegun)).trans (putBackCurrent_some hcur hk))
    (testStopPoint_cycle (withPutBack (atStop p) n k))

theorem estopRecord_none (hcur : p.cycle.current = none) : estopRecord (setEstopLine p true) = atStop p := by
  unfold estopRecord
  split
  · exact failCurrent_none _ hcur
  · exact putBackCurrent_none hcur

theorem cycleEstop_idle (hcur : p.cycle.current = none) (hnew : p.cycle.phase ≠ .lockout ∨ p.cycle.causes.estop = false) :
    cycleEstop (setEstopLine p true) = lockedByStop p (atStop p) none := by
  by_cases hphase : p.cycle.phase = .lockout
  · have hadd := addCause_new (p := dropCurrent (atStop p)) (c := .estop) (n := none) (hnew.resolve_left (not_not.2 hphase))
    rw [cycleEstop_eq, estopRecord_none hcur, if_pos (by exact hphase), hadd, lockedByStop, stoppedCycle, ← hphase]
    rfl
  · rw [cycleEstop_locks hphase (estopRecord_none hcur) rfl, hcur]

theorem cycleEstop_held (hcur : p.cycle.current = none) (hphase : p.cycle.phase = .lockout) (hheld : p.cycle.causes.estop = true) :
    cycleEstop (setEstopLine p true) = { atStop p with cycle := stoppedCycle p } := by
  rw [cycleEstop_eq, estopRecord_none hcur, if_pos (by exact hphase), addCause_held (by exact hheld), stoppedCycle, ← hphase]
  rfl

end

/-- R39, R165: the queue after an assertion of the line. -/
def StoppedQueue (p : Part) (u : Queue) : Prop :=
  u.aside = none ∧
  (∀ n, p.cycle.current = some n → p.cycle.penetrationBegun = true → ∀ r ∈ u.records,
    r.number = n → r.state = .failed ∧ r.failure = some .estop ∧ r.reported = false) ∧
  (∀ n k, p.cycle.current = some n → p.cycle.penetrationBegun = false → p.queue.aside = some k → ∀ r ∈ u.records,
    r.number = n → r.state = k.state ∧ r.failure = k.failure ∧ r.tampCount = k.tampCount ∧ r.reported = k.reported) ∧
  (p.cycle.current = none → u = p.queue)

/-- A record that a map over the records of one number has reached. -/
theorem exists_of_mem_changed {rs : List SleeperRecord} {n : Nat} {f : SleeperRecord → SleeperRecord} {r : SleeperRecord}
    (hr : r ∈ rs.map fun x => if x.number = n then f x else x) (hn : r.number = n) : ∃ x, r = f x := by
  obtain ⟨x, -, rfl⟩ := List.mem_map.1 hr
  by_cases hx : x.number = n
  · exact ⟨x, if_pos hx⟩
  · rw [if_neg hx] at hn
    exact absurd hn hx

theorem lockedByStop_parts (p q : Part) (n : Option Nat) : (lockedByStop p q n).ground = q.ground ∧
    (lockedByStop p q n).drive = q.drive ∧ (lockedByStop p q n).queue = q.queue ∧
    (lockedByStop p q n).cycle = { stoppedCycle p with causes := p.cycle.causes.add .estop } :=
  ⟨handEvent_ground _ _, handEvent_drive _ _, handEvent_queue _ _, handEvent_cycle _ _⟩

/-- R39, R144, R165: what an assertion of the line makes of a legal part. -/
theorem cycleEstop_stops {p : Part} (hc : CycleLegal p) :
    (cycleEstop (setEstopLine p true)).ground = (atStop p).ground ∧
    (cycleEstop (setEstopLine p true)).drive = (atStop p).drive ∧
    (cycleEstop (setEstopLine p true)).cycle = { stoppedCycle p with causes := p.cycle.causes.add .estop } ∧
    StoppedQueue p (cycleEstop (setEstopLine p true)).queue := by
  obtain ⟨-, -, -, -, hcurrent, -, haside, -⟩ := hc
  cases hcur : p.cycle.current with
  | none =>
    have hno : p.queue.aside = none := by
      rw [← Option.not_isSome_iff_eq_none, haside, ← hcurrent, hcur]
      nofun
    have hqueue : StoppedQueue p p.queue := ⟨hno, fun n h => (nomatch hcur.symm.trans h),
      fun n k h => (nomatch hcur.symm.trans h), fun _ => rfl⟩
    by_cases hheld : p.cycle.phase = .lockout ∧ p.cycle.causes.estop = true
    · rw [cycleEstop_held hcur hheld.1 hheld.2]
      have hsame : p.cycle.causes.add .estop = p.cycle.causes := by rw [CauseSet.add, ← hheld.2]
      rw [hsame]
      exact ⟨rfl, rfl, rfl, hqueue⟩
    · rw [cycleEstop_idle hcur (by rw [← Bool.not_eq_true]; tauto)]
      obtain ⟨hground, hdrive, hq, hcycle⟩ := lockedByStop_parts p (atStop p) none
      rw [hq]
      exact ⟨hground, hdrive, hcycle, hqueue⟩
  | some n =>
    have hphase : p.cycle.phase ≠ .lockout := fun h => by rw [hcur, h] at hcurrent; cases hcurrent
    cases hbegun : p.cycle.penetrationBegun with
    | true =>
      rw [cycleEstop_fails hphase hcur hbegun]
      obtain ⟨hground, hdrive, hq, hcycle⟩ := lockedByStop_parts p (testStopPoint (withFailed (atStop p) n .estop)) (some n)
      have hoff := testStopPoint_offQueue (withFailed (atStop p) n .estop)
      rw [hq, testStopPoint_queue]
      refine ⟨hground.trans (ground_of_offQueue hoff), hdrive.trans (congrArg (fun x => x.2.1) hoff), hcycle, rfl,
        fun m hm _ r hr hn => ?_, fun m k _ h => (nomatch hbegun.symm.trans h), fun h => (nomatch hcur.symm.trans h)⟩
      cases hcur.symm.trans hm
      obtain ⟨x, rfl⟩ := exists_of_mem_changed hr hn
      exact ⟨rfl, rfl, rfl⟩
    | false =>
      obtain ⟨k, hk⟩ := Option.isSome_iff_exists.1 (haside.trans (by rw [← hcurrent, hcur]; rfl) : p.queue.aside.isSome = true)
      rw [cycleEstop_putsBack hphase hcur hbegun hk]
      let q := (renewInPosition (testStopPoint (withPutBack (atStop p) n k))).1
      obtain ⟨hground, hdrive, hq, hcycle⟩ := lockedByStop_parts p q (some n)
      have hoff : q.offQueue = (withPutBack (atStop p) n k).offQueue := (renewInPosition_offQueue _).trans (testStopPoint_offQueue _)
      have htested := testStopPoint_queue (withPutBack (atStop p) n k)
      have hrecords : q.queue.records = (withPutBack (atStop p) n k).queue.records := (congrArg Queue.records htested : _)
      have hnone : q.queue.aside = none := (congrArg Queue.aside htested : _)
      rw [hq]
      refine ⟨hground.trans (ground_of_offQueue hoff), hdrive.trans (congrArg (fun x => x.2.1) hoff), hcycle, hnone,
        fun m _ h => (nomatch hbegun.symm.trans h), fun m j hm _ hj r hr hn => ?_, fun h => (nomatch hcur.symm.trans h)⟩
      cases hcur.symm.trans hm
      cases hk.symm.trans hj
      rw [hrecords] at hr
      obtain ⟨x, rfl⟩ := exists_of_mem_changed ((trimHistory_keeps _).1.subset hr) hn
      exact ⟨rfl, rfl, rfl, rfl⟩

/-- R148: the vertical outputs. -/
theorem verticalOutput_bounds (p : Part) (u : TampUnit) :
    (p.travel.motion = .moving ∨ p.lines.estop = true → verticalOutput p u ≤ 0) ∧
    (verticalOutput p u = 100 ↔ p.cycle.vertical.get u = .lower ∧ p.travel.motion = .standstill ∧ p.lines.estop = false) ∧
    (verticalOutput p u = -100 ↔ p.cycle.vertical.get u = .raise) := by
  cases hv : p.cycle.vertical.get u with
  | rest => simp [verticalOutput, hv]
  | raise => simp [verticalOutput, hv]
  | lower =>
    by_cases hpass : p.travel.motion = .standstill ∧ p.lines.estop = false
    · simp [verticalOutput, hv, hpass]
    · simp only [verticalOutput, hv, if_neg hpass]
      simp [hpass]

/-- Settles O51. -/
theorem theEmergencyStopRestsEverything : Obligations.TheEmergencyStopRestsEverything := by
  unfold Obligations.TheEmergencyStopRestsEverything
  have hexec {s : State} (hp : s.part.powered = true) (hline : s.part.lines.estop = false) :
      exec .emergencyStopAsserted s = .next (s.withPart (cycleEstop (setEstopLine s.part true))) := by
    show Host.Outcome.next (s.withPart (if _ then _ else _)) = _
    rw [if_pos ⟨hp, hline⟩]
  refine ⟨fun s hp hline hc hq => ⟨_, hexec hp hline, ?_⟩, fun s hp hline => ?_, fun s hp hline => ?_, fun s => rfl, fun p u => ?_⟩
  · obtain ⟨hground, hdrive, hcycle, haside, hfailed, hrestored, hkept⟩ := cycleEstop_stops hc
    simp only [State.withPart, hcycle, hdrive]
    exact ⟨congrArg Ground.lines hground, rfl, rfl, rfl, rfl, rfl, rfl, rfl, fun u => by cases u <;> exact ⟨rfl, rfl⟩,
      fun x => by cases x <;> rfl, fun x => by cases x <;> rfl, rfl, rfl, haside, hfailed, hrestored, hkept, rfl,
      congrArg Ground.travel hground, congrArg Ground.plan hground, congrArg Ground.store hground,
      congrArg Ground.scanner hground⟩
  · intro causes p left locksOut
    have locks {q : Part} (hq : cycleEstop (setEstopLine s.part true) = q) :
        exec .emergencyStopAsserted s = .next (s.withPart q) := hq ▸ hexec hp hline
    exact ⟨fun n hphase hcur hbegun => locks (cycleEstop_fails hphase hcur hbegun),
      fun n k hphase hcur hbegun hk => locks (cycleEstop_putsBack hphase hcur hbegun hk),
      fun hcur hnew => locks (cycleEstop_idle hcur hnew), fun hcur hphase hheld => locks (cycleEstop_held hcur hphase hheld)⟩
  · show Host.Outcome.next (s.withPart (if _ then _ else _)) = _
    rw [if_neg (by rw [hline]; rintro ⟨-, h⟩; cases h), setEstopLine, ← hline]
    rfl
  · exact verticalOutput_bounds p u

end Sys2Proof.Machine
end

section
/-! PROOF. The drive's timers, the cycle start and the folding step (R138 to R143, R147, R150 to R156, R160, R161). -/

namespace Sys2Proof.Machine
open Sys2Proof Sys2Proof.Safety

/-! ### The record on which a cycle can start (R47, R151) -/

theorem blockedByLatch_eq_false_iff (q : Queue) (n : Nat) :
    blockedByLatch q n = false ↔ ∀ h, q.latch = some h → n < h := by
  unfold blockedByLatch
  cases q.latch <;> simp

theorem startableRecord_iff (p : Part) (r : SleeperRecord) : startableRecord p = some r ↔ MayStart p r := by
  constructor
  · intro h
    obtain ⟨hphase, horigin, hmotion, hline, hin, hlatch, hskip, hstate⟩ := startableRecord_some h
    exact ⟨hphase, horigin, hmotion, hline, hin, (blockedByLatch_eq_false_iff _ _).1 hlatch, hskip, hstate⟩
  · rintro ⟨hphase, horigin, hmotion, hline, hin, hlatch, hskip, hstate⟩
    rw [startableRecord, if_pos ⟨hphase, horigin, hmotion, hline⟩]
    simp only [hin]
    exact if_pos ⟨(blockedByLatch_eq_false_iff _ _).2 hlatch, hskip, hstate⟩

theorem startableRecord_eq_none (p : Part) (h : ∀ r, ¬ MayStart p r) : startableRecord p = none :=
  Option.eq_none_iff_forall_ne_some.2 fun r hr => h r ((startableRecord_iff p r).1 hr)

section
variable {p : Part} {r : SleeperRecord}

/-- R152: in MANUAL mode a start event does nothing. -/
theorem startEvent_manual (h : p.cycle.mode = .manual) : startEvent p = p := by
  unfold startEvent
  rw [h]

/-- R152: in AUTO mode a start event turns on the record that may start. -/
theorem startEvent_auto (hmode : p.cycle.mode = .auto) (hr : MayStart p r) :
    startEvent p = if r.state = .pending ∧ r.candidate.skip = none then startCycle p r else p := by
  unfold startEvent
  rw [hmode, (startableRecord_iff p r).2 hr]

theorem startEvent_stays (h : ∀ r, MayStart p r → r.state ≠ .pending ∨ r.candidate.skip ≠ none) : startEvent p = p := by
  cases hmode : p.cycle.mode with
  | manual => exact startEvent_manual hmode
  | auto =>
    by_cases hmay : ∃ r, MayStart p r
    · obtain ⟨r, hr⟩ := hmay
      rw [startEvent_auto hmode hr]
      refine if_neg fun hstart => ?_
      exact (h r hr).elim (· hstart.1) (· hstart.2)
    · unfold startEvent
      rw [hmode, startableRecord_eq_none p fun r hr => hmay ⟨r, hr⟩]

/-! ### What a start writes into the record (R39, R129, R154) -/

/-- A change of record n and of nothing before it leaves the previous lining shift as it is. -/
theorem previousShift_changeRecord (rs : List SleeperRecord) (n : Nat) {f : SleeperRecord → SleeperRecord}
    (hf : ∀ r, (f r).number = r.number) : previousShift (changeRecord rs n f) n = previousShift rs n := by
  unfold previousShift changeRecord
  rw [← List.map_reverse, List.findSome?_map]
  refine congrArg (Option.map _) (congrArg (List.findSome? · _) (funext fun r => ?_))
  by_cases hr : r.number = n <;> simp [hr, hf]

/-- The targets take nothing of the queue but the previous lining shift. -/
theorem targetInputs_withQueue {u : Queue} {n : Nat} (h : previousShift u.records n = previousShift p.queue.records n) :
    targetInputs { p with queue := u } n = targetInputs p n :=
  congrArg (fun x => { targetInputs p n with previous := x }) h

/-- Two changes of the one record numbered n are the change to what they make of it. -/
theorem changeRecord_changeRecord {rs : List SleeperRecord} (hrising : Rising rs) (hr : r ∈ rs)
    {f g : SleeperRecord → SleeperRecord} (hf : ∀ x, (f x).number = x.number) :
    changeRecord (changeRecord rs r.number f) r.number g = rs.map fun x => if x.number = r.number then g (f r) else x := by
  unfold changeRecord
  rw [List.map_map]
  refine List.map_congr_left fun x hx => ?_
  by_cases hn : x.number = r.number
  · rw [hrising.unique hx hr hn]
    simp [hf]
  · simp [hn]

/-- R39, R154: the record as a start leaves it. -/
def startedRecord (r : SleeperRecord) (t : Targets) : SleeperRecord :=
  { r with state := .inCycle, reported := false, failure := none, tampCount := min 15 (r.tampCount + 1), targets := some t }

/-- R154: the part at a start on record r, before the stop point is tested. -/
def startingPart (p : Part) (r : SleeperRecord) : Part :=
  { p with
    queue := { p.queue with
      aside := some { state := r.state, tampCount := r.tampCount, reported := r.reported, failure := r.failure }
      records := p.queue.records.map fun x =>
        if x.number = r.number then startedRecord r (computeTargets (targetInputs p r.number)) else x }
    cycle := positioningCycle p r }

theorem beginCycle_eq (hrising : Rising p.queue.records) (hr : r ∈ p.queue.records) :
    beginCycle p r = testStopPoint (startingPart p r) := by
  have hstarted : startRecord p r.number = { p with queue := (startRecord p r.number).queue } := by
    unfold startRecord
    split <;> rfl
  have hinputs : targetInputs (startRecord p r.number) r.number = targetInputs p r.number := by
    rw [hstarted]
    refine targetInputs_withQueue (u := (startRecord p r.number).queue) ?_
    rw [startRecord_queue (recordAt_of_mem hrising hr)]
    exact previousShift_changeRecord _ _ fun _ => rfl
  have hwritten : writeTargets (startRecord p r.number) r.number =
      { p with queue := (startingPart p r).queue } := by
    unfold writeTargets
    rw [hinputs, hstarted, startRecord_queue (recordAt_of_mem hrising hr)]
    exact congrArg (fun rs => Part.withRecords { p with queue := (startingPart p r).queue } rs)
      (changeRecord_changeRecord hrising hr fun _ => rfl)
  unfold beginCycle
  simp only [hwritten]
  rfl

theorem startingPart_recordAt (hrising : Rising p.queue.records) (hr : r ∈ p.queue.records) :
    recordAt (testStopPoint (startingPart p r)).queue.records r.number =
      some (startedRecord r (computeTargets (targetInputs p r.number))) := by
  rw [testStopPoint_queue]
  have hkept : Rising (startingPart p r).queue.records := by
    refine List.pairwise_map.2 (hrising.imp fun {x y} hlt => ?_)
    have hnum : ∀ x : SleeperRecord, (if x.number = r.number then
        startedRecord r (computeTargets (targetInputs p r.number)) else x).number = x.number := by
      intro x
      split
      · next h => exact h.symm
      · rfl
    rw [hnum, hnum]
    exact hlt
  exact recordAt_of_mem hkept (List.mem_map.2 ⟨r, hr, if_pos rfl⟩)

/-- R132, R154: a cycle start gives MOVE START for the targets computed from the part before it. -/
theorem startCycle_eq (hrising : Rising p.queue.records) (hr : r ∈ p.queue.records) :
    let m := moveStart (testStopPoint (startingPart p r)) (computeTargets (targetInputs p r.number))
    startCycle p r = if m.2 then positioned m.1 else m.1 := by
  intro m
  have htargets : (recordAt (testStopPoint (startingPart p r)).queue.records r.number).bind (·.targets) =
      some (computeTargets (targetInputs p r.number)) := by
    rw [startingPart_recordAt hrising hr]
    rfl
  have hgive : startCycle p r = giveMoveStart (testStopPoint (startingPart p r)) r.number :=
    congrArg (giveMoveStart · r.number) (beginCycle_eq hrising hr)
  rw [hgive, giveMoveStart]
  simp only [htargets]
  change (match m with | (p, true) => positioned p | (p, false) => p) = _
  obtain ⟨q, _ | _⟩ := m <;> rfl

end

/-- Settles O44. -/
theorem cyclesStartOnTheRecordInPosition : Obligations.CyclesStartOnTheRecordInPosition := by
  unfold Obligations.CyclesStartOnTheRecordInPosition
  refine ⟨⟨fun p => ⟨startEvent_manual, fun r hmode hr hpending hskip => ?_, startEvent_stays⟩, fun s r rest h hf => ?_,
    fun s r rest h hf => ?_⟩, fun p r hr hrising => startCycle_eq hrising (recordInPosition_mem hr.2.2.2.2.1)⟩
  · rw [startEvent_auto hmode hr]
    exact if_pos ⟨hpending, hskip⟩
  · intro code p
    refine ⟨fun hcode => ?_, fun hcode => ?_, fun hcode => ?_⟩
    · have hnone : modeOfCode code = none := Option.eq_none_iff_forall_ne_some.2 fun m hm => by
        have := (modeOfCode_iff code m).1 hm
        cases m <;> simp [Mode.code] at this <;> omega
      refine (control_taken h rfl hf).trans (block_refused (st := .badField) ?_)
      simp only [show modeOfCode (fieldNat r.fields 0 1) = none from hnone]
    · refine (control_taken h rfl hf).trans (block_ok ?_)
      simp only [show modeOfCode (fieldNat r.fields 0 1) = some .manual from (modeOfCode_iff code .manual).2 hcode]
      rfl
    · refine (control_taken h rfl hf).trans (block_ok ?_)
      simp only [show modeOfCode (fieldNat r.fields 0 1) = some .auto from (modeOfCode_iff code .auto).2 hcode]
      rfl
  · intro p
    refine ⟨fun hbusy => (control_taken h rfl hf).trans (block_refused (st := .busy) (if_pos hbusy)), fun hidle hno => ?_,
      fun x hmode hx => ?_⟩
    · refine (control_taken h rfl hf).trans (block_refused (st := .badState) ((if_neg (not_not.2 hidle)).trans ?_))
      by_cases hauto : p.cycle.mode = .auto
      · exact if_pos hauto
      · refine (if_neg hauto).trans ?_
        simp only [show startableRecord (found s.part r rest) = none from startableRecord_eq_none p (hno.resolve_left hauto)]
    · refine (control_taken h rfl hf).trans (block_ok ?_)
      refine (if_neg (not_not.2 hx.1)).trans ((if_neg ?_).trans ?_)
      · rw [show (found s.part r rest).cycle.mode = .manual from hmode]; decide
      · simp only [show startableRecord (found s.part r rest) = some x from (startableRecord_iff p x).2 hx]; rfl

/-! ### The drive's timers (R138, R139, R142, R143, R160, R161) -/

theorem positionedBy_same {before after : AxisState} {d : Drive} (h : after.phase = before.phase) :
    positionedBy before after d = false := by
  simp [positionedBy, h]

theorem positionedBy_undone {before after : AxisState} {d : Drive} {y : Axis} (h : axisDone (d.axes.get y) = false) :
    positionedBy before after d = false := by
  have hall : d.axes.all axisDone = false := by
    rw [Bool.eq_false_iff]
    intro hall
    exact absurd ((PerAxis.all_iff d.axes axisDone).1 hall y) (by rw [h]; nofun)
  rw [positionedBy, hall, Bool.and_false]

section
variable {s : State} {x : Axis} {b : AxisState}

/-- R138: the expiry of a running move timer gives the axis b; `told` says whether that is a POSITIONED. -/
theorem exec_moveTimerExpiry {ms : Int} {told : Bool} (hp : s.part.powered = true)
    (htimer : (s.part.drive.axes.get x).timer = .running ms)
    (hb : (if (s.part.drive.axes.get x).phase = .moving then
        { s.part.drive.axes.get x with phase := .short, demand := 0, timer := .expired }
      else { s.part.drive.axes.get x with timer := .expired }) = b)
    (htold : positionedBy (s.part.drive.axes.get x) b (s.part.setAxis x b).drive = told) :
    exec (.moveTimerExpiry x) s = .next (s.withPart
      (if told then positioned (s.part.setAxis x b) else s.part.setAxis x b)) := by
  have hexpire : expireMove s.part x = (s.part.setAxis x b, told) := by
    unfold expireMove
    simp only [htimer, hb, htold]
  show execMoveTimerExpiry x s = _
  rw [execMoveTimerExpiry, eventOf_powered hp, hexpire]
  cases told <;> rfl

theorem exec_releaseTimerExpiry {q : Part} (hp : s.part.powered = true) (htimer : s.part.drive.releaseTimer ≠ none)
    (hq : cycleReleaseEnd (s.part.withDrive (restAxes s.part.drive)) (PerAxis.make (residualOf s.part)) = q) :
    exec .releaseTimerExpiry s = .next (s.withPart q) := by
  obtain ⟨ms, hms⟩ := Option.ne_none_iff_exists'.1 htimer
  show execReleaseTimerExpiry s = _
  rw [execReleaseTimerExpiry, eventOf_powered hp, ← hq]
  simp only [hms]
  rfl

end

/-- R160: the record's state and cause at the end of a cycle. -/
theorem outcomeOf_eq (st : StopRequest) : outcomeOf st =
    (if st = .none then .tamped else .failed,
     match st with | .none => none | .stopped => some .stopped | .travelFault => some .travelFault) := by
  cases st <;> rfl

/-- R160, R161: the end of the release of a cycle on record n. -/
theorem cycleReleaseEnd_releasing {p : Part} {n : Nat} {residuals : PerAxis (Option Int)} (hphase : p.cycle.phase = .releasing)
    (hcur : p.cycle.current = some n) :
    cycleReleaseEnd p residuals =
      { finishRecord p n (outcomeOf p.cycle.stopRequested).1 (outcomeOf p.cycle.stopRequested).2 (some (resultOf p residuals)) with
        cycle := { p.cycle with phase := .idle, current := none, values := none, stopRequested := .none } } := by
  unfold cycleReleaseEnd
  simp only [hphase, hcur]
  have hcycle := finishRecord_cycle p n (outcomeOf p.cycle.stopRequested).1 (outcomeOf p.cycle.stopRequested).2
    (some (resultOf p residuals))
  simp only [dropCurrent, Part.withCycle, hcycle]

theorem cycleReleaseEnd_other {p : Part} {residuals : PerAxis (Option Int)} (hphase : p.cycle.phase ≠ .releasing) :
    cycleReleaseEnd p residuals = p := by
  unfold cycleReleaseEnd
  split
  · next h => exact absurd h hphase
  · rfl

/-- Settles O43. -/
theorem theDriveTimersEndMovesAndReleases : Obligations.TheDriveTimersEndMovesAndReleases := by
  unfold Obligations.TheDriveTimersEndMovesAndReleases
  refine ⟨fun s x ms hp htimer => ?_, fun s hp => ?_⟩
  · intro p a q short done
    have hdone (y : Axis) : axisDone ((p.setAxis x short).drive.axes.get y) = true ↔
        y = x ∨ axisDone (p.drive.axes.get y) = true := by
      change axisDone ((p.drive.axes.set x short).get y) = true ↔ _
      rw [PerAxis.get_set]
      by_cases hy : y = x
      · simp [hy, axisDone, short]
      · simp [hy]
    refine ⟨fun hphase => ?_, fun hphase hstarted hall => ?_, fun hphase ⟨y, hy⟩ => ?_⟩
    · exact exec_moveTimerExpiry hp htimer (if_neg hphase) (positionedBy_same rfl)
    · have htrue : positionedBy a short (p.setAxis x short).drive = true := by
        refine (positionedBy_iff (x := x) (after := short) (PerAxis.get_set_same _ x short) hstarted).2 ⟨?_, fun y => ?_⟩
        · rw [hphase]
          nofun
        · exact (hdone y).2 ((hall y).imp_right (axisDone_iff _).2)
      exact exec_moveTimerExpiry hp htimer (if_pos hphase) htrue
    · have hundone : axisDone ((p.setAxis x short).drive.axes.get y) = false := by
        rw [Bool.eq_false_iff]
        exact fun h => hy (((hdone y).1 h).imp_right (axisDone_iff _).1)
      exact exec_moveTimerExpiry hp htimer (if_pos hphase) (positionedBy_undone hundone)
  · intro p rested residual
    refine ⟨fun htimer => ?_, fun htimer hphase => ?_, fun n htimer hphase hcur => ?_⟩
    · have hexec : exec .releaseTimerExpiry s = .next (s.withPart p) := by
        show execReleaseTimerExpiry s = _
        rw [execReleaseTimerExpiry, eventOf_powered hp]
        simp only [show s.part.drive.releaseTimer = none from htimer]
        rfl
      exact hexec
    · exact exec_releaseTimerExpiry hp htimer (cycleReleaseEnd_other (p := rested) hphase)
    · intro result ended q
      refine exec_releaseTimerExpiry hp htimer ((cycleReleaseEnd_releasing (p := rested) (n := n) hphase hcur).trans ?_)
      rw [outcomeOf_eq]
      rfl

/-! ### The folding step (R147, R155, R156) -/

theorem allUnits_any {f : TampUnit → Bool} : allUnits.any f = true ↔ ∃ u, f u = true := by
  simp only [allUnits, List.any_cons, List.any_nil, Bool.or_eq_true, Bool.or_false]
  refine ⟨fun h => ?_, fun ⟨u, hu⟩ => ?_⟩
  · rcases h with h | h | h | h
    exacts [⟨.lo, h⟩, ⟨.li, h⟩, ⟨.ri, h⟩, ⟨.ro, h⟩]
  · cases u <;> simp [hu]

theorem allUnits_any_eq_false {f : TampUnit → Bool} (h : ∀ u, f u = false) : allUnits.any f = false := by
  rw [Bool.eq_false_iff]
  intro hany
  obtain ⟨u, hu⟩ := allUnits_any.1 hany
  rw [h u] at hu
  cases hu

section
variable {p : Part} {units : PerUnit UnitState}

theorem mapUnits_eq {f : TampUnit → UnitState → UnitState} (h : ∀ u, units.get u = f u (p.cycle.units.get u)) :
    mapUnits p f = units :=
  PerUnit.eq_of_get fun u => (PerUnit.get_make _ u).trans (h u).symm

theorem unitConfirms_iff (p : Part) (u : TampUnit) : unitConfirms p u = true ↔
    p.lines.folds.get (armsOf u).1 = p.cycle.fold.get (armsOf u).1 ∧
      p.lines.folds.get (armsOf u).2 = p.cycle.fold.get (armsOf u).2 := by
  simp [unitConfirms, armConfirms]

/-- R156: the part with the folding step ended. -/
def foldingEnded (p : Part) : Part := { p with cycle := { p.cycle with folding := .ended, phaseTimer := none } }

theorem endFolding_penetrates (h : ∃ u, (p.cycle.units.get u).role = .lowered) :
    endFolding p = enterPenetrating (foldingEnded p) := by
  obtain ⟨u, hu⟩ := h
  exact if_pos (allUnits_any.2 ⟨u, decide_eq_true hu⟩)

theorem endFolding_releases (h : ∀ u, (p.cycle.units.get u).role ≠ .lowered) :
    endFolding p = enterReleasing (foldingEnded p) := by
  have hany : allUnits.any (lowered (foldingEnded p)) = false := allUnits_any_eq_false fun u => decide_eq_false (h u)
  exact if_neg (by rw [show allUnits.any (lowered (p.withCycle _)) = false from hany]; nofun)

/-- R156: the units after each awaited one that confirms has become LOWERED. -/
def Confirmed (p : Part) (units : PerUnit UnitState) : Prop :=
  ∀ u, units.get u = if (p.cycle.units.get u).role = .undecided ∧ unitConfirms p u = true then
    { p.cycle.units.get u with role := .lowered } else p.cycle.units.get u

/-- The part with the units' states replaced. -/
def withUnits (p : Part) (units : PerUnit UnitState) : Part := { p with cycle := { p.cycle with units := units } }

theorem confirmUnits_eq (h : Confirmed p units) : confirmUnits p =
    if allUnits.any fun u => ((withUnits p units).unit u).role = .undecided then withUnits p units
    else endFolding (withUnits p units) := by
  have hmap : mapUnits p (fun u s => if s.role = .undecided ∧ unitConfirms p u then { s with role := .lowered } else s) =
      units := mapUnits_eq h
  unfold confirmUnits
  rw [hmap]
  rfl

theorem confirmUnits_waits (h : Confirmed p units) (hwaits : ∃ u, (units.get u).role = .undecided) :
    confirmUnits p = withUnits p units := by
  obtain ⟨u, hu⟩ := hwaits
  exact (confirmUnits_eq h).trans (if_pos (allUnits_any.2 ⟨u, decide_eq_true hu⟩))

theorem confirmUnits_ends (h : Confirmed p units) (hends : ∀ u, (units.get u).role ≠ .undecided) :
    confirmUnits p = endFolding (withUnits p units) := by
  refine (confirmUnits_eq h).trans (if_neg (Bool.not_eq_true _ ▸ ?_))
  exact allUnits_any_eq_false fun u => decide_eq_false (hends u)

end

/-- R155: HOLD as the first POSITIONED gives it. -/
theorem holdDrive_started {p : Part} (hline : p.lines.estop = false) (hrelease : p.drive.releaseTimer = none)
    (hstarted : ∃ x, (p.drive.axes.get x).started = true) :
    holdDrive p = p.withDrive { p.drive with axes := p.drive.axes.map heldAxis, clampEngaged := true } := by
  refine if_pos ?_
  rw [hline, hrelease, (anyStarted_iff p.drive).2 hstarted]
  rfl

/-- R156: the units after the first POSITIONED, all having been UNDECIDED. -/
def FoldedOrConfirmed (p : Part) (folds : ArmSet) (units : PerUnit UnitState) : Prop :=
  ∀ u, (unitFolded folds u = true → units.get u = { p.cycle.units.get u with
      role := .folded, flags := { (p.cycle.units.get u).flags with folded := true } }) ∧
    (unitFolded folds u = false → unitConfirms (p.withCycle { p.cycle with fold := folds }) u = true →
      units.get u = { p.cycle.units.get u with role := .lowered }) ∧
    (unitFolded folds u = false → unitConfirms (p.withCycle { p.cycle with fold := folds }) u = false →
      units.get u = p.cycle.units.get u)

/-- R156: the part at the beginning of the folding step, before the arms are read. -/
def foldingBegun (p : Part) (folds : ArmSet) : Part :=
  p.withCycle { p.cycle with
    folding := .inProgress, fold := folds, phaseTimer := some .fold
    units := mapUnits p fun u s =>
      if unitFolded folds u then { s with role := .folded, flags := { s.flags with folded := true } } else s }

theorem foldingBegun_confirmed {p : Part} {folds : ArmSet} {units : PerUnit UnitState}
    (hroles : ∀ u, (p.cycle.units.get u).role = .undecided) (h : FoldedOrConfirmed p folds units) :
    Confirmed (foldingBegun p folds) units := by
  intro u
  obtain ⟨hin, hreads, hwaits⟩ := h u
  have hget : (foldingBegun p folds).cycle.units.get u = if unitFolded folds u then
      { p.cycle.units.get u with role := .folded, flags := { (p.cycle.units.get u).flags with folded := true } }
      else p.cycle.units.get u := PerUnit.get_make _ u
  have hconfirms : unitConfirms (foldingBegun p folds) u = unitConfirms (p.withCycle { p.cycle with fold := folds }) u := rfl
  rw [hget, hconfirms]
  cases hset : unitFolded folds u with
  | true => simp [hin hset]
  | false =>
    cases hread : unitConfirms (p.withCycle { p.cycle with fold := folds }) u with
    | true => simp [hreads hset hread, hroles u]
    | false => simp [hwaits hset hread]

/-- Settles O45. -/
theorem foldingDecidesTheRoles : Obligations.FoldingDecidesTheRoles := by
  unfold Obligations.FoldingDecidesTheRoles
  intro s hp agrees confirms ended
  refine ⟨fun arm folded => ?_, fun units hphase hfolding htimer hunits => ?_, fun htimer => ?_, fun p hno => ?_,
    fun p v units hphase hfolding hline hrelease hstarted hvalues hroles => ?_⟩
  · intro p
    refine ⟨fun hno => ?_, fun units hphase hfolding hunits => ?_⟩
    · have hstays : ¬ (p.powered = true ∧ p.cycle.phase = .positioning ∧ p.cycle.folding = .inProgress) :=
        fun ⟨_, hphase, hfolding⟩ => hno.elim (· hphase) (· hfolding)
      exact congrArg (fun t => Host.Outcome.next (s.withPart t)) (if_neg hstays)
    · have hexec {t : Part} (ht : confirmUnits p = t) : exec (.foldConfirm arm folded) s = .next (s.withPart t) :=
        congrArg (fun t => Host.Outcome.next (s.withPart t)) ((if_pos ⟨hp, hphase, hfolding⟩).trans ht)
      have hconfirmed : Confirmed p units := fun u => by
        rw [hunits u]
        exact if_congr (and_congr_right fun _ => (unitConfirms_iff p u).symm) rfl rfl
      intro q
      exact ⟨fun hwaits => hexec (confirmUnits_waits hconfirmed hwaits),
        fun hends hlow => hexec ((confirmUnits_ends hconfirmed hends).trans (endFolding_penetrates (p := q) hlow)),
        fun hends hnone => hexec ((confirmUnits_ends hconfirmed hends).trans (endFolding_releases (p := q) hnone))⟩
  · intro q
    have hexec {t : Part} (ht : endFolding q = t) : exec .foldTimeout s = .next (s.withPart t) := by
      have hfaults : foldFaults s.part = q := by
        have hmap : mapUnits s.part (fun _ s => if s.role = .undecided then
            { s with role := .foldFault, flags := { s.flags with foldFault := true } } else s) = units :=
          mapUnits_eq fun u => by
            by_cases hrole : (s.part.cycle.units.get u).role = .undecided
            · rw [(hunits u).1 hrole, if_pos hrole]
            · rw [(hunits u).2 hrole, if_neg hrole]
        unfold foldFaults
        rw [hmap]
        rfl
      show execFoldTimeout s = _
      rw [execFoldTimeout, eventOf_powered hp, if_pos ⟨hphase, hfolding, htimer⟩, hfaults, ht]
    exact ⟨fun hlow => hexec (endFolding_penetrates hlow), fun hnone => hexec (endFolding_releases hnone)⟩
  · have hexec : exec .foldTimeout s = .next (s.withPart s.part) := by
      show execFoldTimeout s = _
      rw [execFoldTimeout, eventOf_powered hp, if_neg fun h => htimer h.2.2]
    exact hexec
  · exact if_neg fun h => hno.elim (· h.1) (· h.2)
  · intro inSet reads hunits q
    let held := p.withDrive { p.drive with axes := p.drive.axes.map heldAxis, clampEngaged := true }
    have hin (u : TampUnit) : unitFolded v.foldSet u = true ↔ inSet u := by simp [unitFolded, inSet]
    have hreads (u : TampUnit) : unitConfirms (held.withCycle { held.cycle with fold := v.foldSet }) u = true ↔ reads u :=
      unitConfirms_iff _ u
    have hconfirmed : Confirmed (foldingBegun held v.foldSet) units := by
      refine foldingBegun_confirmed hroles fun u => ?_
      obtain ⟨hset, hread, hwait⟩ := hunits u
      rw [← Bool.not_eq_true, ← Bool.not_eq_true, hin, hreads]
      exact ⟨hset, hread, hwait⟩
    have hbegins : positioned p = confirmUnits (foldingBegun held v.foldSet) := by
      rw [positioned, if_pos ⟨hphase, hfolding⟩, holdDrive_started hline hrelease hstarted, beginFolding]
      have hfolds : cycleFoldSet held = v.foldSet := by
        rw [cycleFoldSet, show held.cycle.values = some v from hvalues]
        rfl
      simp only [show cycleFoldSet (p.withDrive _) = v.foldSet from hfolds]
      rfl
    have hends (hall : ∀ u, inSet u ∨ reads u) (u : TampUnit) : (units.get u).role ≠ .undecided := by
      obtain ⟨hset, hread, _⟩ := hunits u
      by_cases h : inSet u
      · rw [hset h]; nofun
      · rw [hread h ((hall u).resolve_left h)]; nofun
    refine ⟨fun ⟨u, hno, hunread⟩ => ?_, fun hall ⟨u, hno⟩ => ?_, fun hall => ?_⟩
    · rw [hbegins]
      refine confirmUnits_waits hconfirmed ⟨u, ?_⟩
      rw [(hunits u).2.2 hno hunread]
      exact hroles u
    · rw [hbegins, confirmUnits_ends hconfirmed (hends hall)]
      refine endFolding_penetrates (p := q) ⟨u, ?_⟩
      rw [show q.cycle.units = units from rfl, (hunits u).2.1 hno ((hall u).resolve_left hno)]
    · rw [hbegins, confirmUnits_ends hconfirmed (hends fun u => .inl (hall u))]
      refine endFolding_releases (p := q) fun u => ?_
      rw [show q.cycle.units = units from rfl, (hunits u).1 (hall u)]
      nofun

end Sys2Proof.Machine
end

section
/-! PROOF. The phases of an insertion, by their timers and by the samples (R147, R157 to R159, R164, R167). -/

namespace Sys2Proof.Machine
open Sys2Proof Sys2Proof.Safety

/-! ### What a unit's arrival at depth and the end of its squeeze make of the part (R157, R158) -/

section
variable {p : Part} {v : CycleValues} {units : PerUnit UnitState}

/-- The part with the units' states and their vertical demands replaced. -/
def withDemands (p : Part) (units : PerUnit UnitState) (vertical : PerUnit Vertical) : Part :=
  { p with cycle := { p.cycle with units := units, vertical := vertical } }

/-- The part with the units' states and the squeeze outputs replaced. -/
def withSqueezes (p : Part) (units : PerUnit UnitState) (squeeze : PerUnit Bool) : Part :=
  { p with cycle := { p.cycle with units := units, squeeze := squeeze } }

theorem cycleDepth_of_values (h : p.cycle.values = some v) : cycleDepth p = v.depth := by rw [cycleDepth, h]; rfl

theorem cycleThreshold_of_values (h : p.cycle.values = some v) : cycleThreshold p = v.threshold := by rw [cycleThreshold, h]; rfl

theorem cycleInsertions_of_values (h : p.cycle.values = some v) : cycleInsertions p = v.insertions := by
  rw [cycleInsertions, h]; rfl

/-- R157: a unit that is at depth now and was not. -/
def comesToDepth (which : TampUnit → Bool) (p : Part) (u : TampUnit) : Bool :=
  lowered p u && !(p.unit u).atDepth && which u && decide (cycleDepth p - 100 ≤ unitDepth p u)

theorem comesToDepth_iff (which : TampUnit → Bool) (hv : p.cycle.values = some v) (u : TampUnit) :
    comesToDepth which p u = true ↔ (p.cycle.units.get u).role = .lowered ∧ (p.cycle.units.get u).atDepth = false ∧
      which u = true ∧ v.depth - 100 ≤ unitDepth p u := by
  simp [comesToDepth, lowered_eq, Part.unit, cycleDepth_of_values hv, and_assoc]

theorem reachDepthOf_eq {which : TampUnit → Bool} {vertical : PerUnit Vertical}
    (h : ∀ u, units.get u = (if comesToDepth which p u then { p.cycle.units.get u with atDepth := true } else p.cycle.units.get u) ∧
      vertical.get u = if comesToDepth which p u then .rest else p.cycle.vertical.get u) :
    reachDepthOf which p = withDemands p units vertical := by
  have hunits : mapUnits p (fun u s => if comesToDepth which p u then { s with atDepth := true } else s) = units :=
    mapUnits_eq fun u => (h u).1
  have hvertical : PerUnit.make (fun u => if comesToDepth which p u then Vertical.rest else p.cycle.vertical.get u) = vertical :=
    PerUnit.eq_of_get fun u => (PerUnit.get_make _ u).trans (h u).2.symm
  rw [← hunits, ← hvertical]
  rfl

/-- R158: a unit whose squeeze ends now. -/
def squeezeEnds (which : TampUnit → Bool) (p : Part) (u : TampUnit) : Bool :=
  lowered p u && !(p.unit u).squeezeEnded && which u

theorem squeezeEnds_iff (which : TampUnit → Bool) (p : Part) (u : TampUnit) :
    squeezeEnds which p u = true ↔ (p.cycle.units.get u).role = .lowered ∧ (p.cycle.units.get u).squeezeEnded = false ∧
      which u = true := by
  simp [squeezeEnds, lowered_eq, Part.unit, and_assoc]

/-- R158: the unit with its squeeze ended, by the timer when `timed`. -/
def withSqueezeEnded (timed : Bool) (a : UnitState) : UnitState :=
  { a with squeezeEnded := true, flags := { a.flags with squeezeTimed := a.flags.squeezeTimed || timed } }

theorem withSqueezeEnded_false (a : UnitState) : withSqueezeEnded false a = { a with squeezeEnded := true } := by
  simp [withSqueezeEnded]

theorem withSqueezeEnded_true (a : UnitState) :
    withSqueezeEnded true a = { a with squeezeEnded := true, flags := { a.flags with squeezeTimed := true } } := by
  simp [withSqueezeEnded]

theorem endSqueezeOf_eq {which : TampUnit → Bool} {timed : Bool} {squeeze : PerUnit Bool}
    (h : ∀ u, units.get u = (if squeezeEnds which p u then withSqueezeEnded timed (p.cycle.units.get u) else p.cycle.units.get u) ∧
      squeeze.get u = if squeezeEnds which p u then false else p.cycle.squeeze.get u) :
    endSqueezeOf which timed p = withSqueezes p units squeeze := by
  have hunits : mapUnits p (fun u s => if squeezeEnds which p u then withSqueezeEnded timed s else s) = units :=
    mapUnits_eq fun u => (h u).1
  have hsqueeze : PerUnit.make (fun u => if squeezeEnds which p u then false else p.cycle.squeeze.get u) = squeeze :=
    PerUnit.eq_of_get fun u => (PerUnit.get_make _ u).trans (h u).2.symm
  rw [← hunits, ← hsqueeze]
  rfl

theorem everyLowered_eq_false {f : UnitState → Bool} {u : TampUnit} (hrole : (p.cycle.units.get u).role = .lowered)
    (hf : f (p.cycle.units.get u) = false) : everyLowered p f = false := by
  rw [Bool.eq_false_iff]
  intro hall
  have := (everyLowered_iff p f).1 hall u hrole
  rw [hf] at this
  cases this

/-- R157: with a LOWERED unit not at depth the cycle stays in PENETRATING. -/
theorem afterDepth_waits {f : Part → Part} {u : TampUnit} (hrole : (p.cycle.units.get u).role = .lowered)
    (hdepth : (p.cycle.units.get u).atDepth = false) : afterDepth f p = p :=
  if_neg (by rw [everyLowered_eq_false hrole hdepth]; nofun)

theorem afterDepth_goes {f : Part → Part}
    (h : ∀ u, (p.cycle.units.get u).role = .lowered → (p.cycle.units.get u).atDepth = true) :
    afterDepth f p = enterSqueezingWith f p := if_pos ((everyLowered_iff p _).2 h)

/-- R158: with a LOWERED unit's squeeze not ended the cycle stays in SQUEEZING. -/
theorem afterSqueeze_waits {f : Part → Part} {u : TampUnit} (hrole : (p.cycle.units.get u).role = .lowered)
    (hends : (p.cycle.units.get u).squeezeEnded = false) : afterSqueeze f p = p :=
  if_neg (by rw [everyLowered_eq_false hrole hends]; nofun)

theorem afterSqueeze_goes {f : Part → Part}
    (h : ∀ u, (p.cycle.units.get u).role = .lowered → (p.cycle.units.get u).squeezeEnded = true) :
    afterSqueeze f p = endSqueezing f p := if_pos ((everyLowered_iff p _).2 h)

end

/-! ### Entering PENETRATING (R157) -/

section
variable {p : Part} {v : CycleValues} {units : PerUnit UnitState} {vertical : PerUnit Vertical}

/-- R157: the units and their demands at the entry to PENETRATING. -/
def Penetrates (p : Part) (v : CycleValues) (units : PerUnit UnitState) (vertical : PerUnit Vertical) : Prop :=
  ∀ u, ((p.cycle.units.get u).role = .lowered → v.depth - 100 ≤ unitDepth p u →
      units.get u = { p.cycle.units.get u with atDepth := true, squeezeEnded := false, clear := false } ∧ vertical.get u = .rest) ∧
    ((p.cycle.units.get u).role = .lowered → ¬ v.depth - 100 ≤ unitDepth p u →
      units.get u = { p.cycle.units.get u with atDepth := false, squeezeEnded := false, clear := false } ∧ vertical.get u = .lower) ∧
    ((p.cycle.units.get u).role ≠ .lowered →
      units.get u = { p.cycle.units.get u with atDepth := false, squeezeEnded := false, clear := false } ∧
        vertical.get u = p.cycle.vertical.get u)

/-- R157: the part as it enters PENETRATING, before any further phase. -/
def penetratingPart (p : Part) (units : PerUnit UnitState) (vertical : PerUnit Vertical) : Part :=
  { p with cycle := { p.cycle with
      phase := .penetrating, penetrationBegun := true, phaseTimer := some .penetration, units := units, vertical := vertical } }

theorem Penetrates.role (h : Penetrates p v units vertical) (u : TampUnit) :
    (units.get u).role = (p.cycle.units.get u).role := by
  obtain ⟨hdeep, hshort, hother⟩ := h u
  by_cases hlow : (p.cycle.units.get u).role = .lowered
  · by_cases hd : v.depth - 100 ≤ unitDepth p u
    · rw [(hdeep hlow hd).1]
    · rw [(hshort hlow hd).1]
  · rw [(hother hlow).1]

theorem setPenetrating_reaches (hv : p.cycle.values = some v) (h : Penetrates p v units vertical) :
    reachDepthOf (fun _ => true) (setPenetrating p) = penetratingPart p units vertical := by
  refine (reachDepthOf_eq (p := setPenetrating p) (units := units) (vertical := vertical) fun u => ?_).trans rfl
  obtain ⟨hdeep, hshort, hother⟩ := h u
  have hget : (setPenetrating p).cycle.units.get u =
      { p.cycle.units.get u with atDepth := false, squeezeEnded := false, clear := false } := PerUnit.get_make _ u
  have hvert : (setPenetrating p).cycle.vertical.get u = if lowered p u then .lower else p.cycle.vertical.get u :=
    PerUnit.get_make _ u
  have hcomes : comesToDepth (fun _ => true) (setPenetrating p) u = true ↔
      (p.cycle.units.get u).role = .lowered ∧ v.depth - 100 ≤ unitDepth p u := by
    rw [comesToDepth_iff (p := setPenetrating p) _ hv, hget]
    exact ⟨fun ⟨hlow, _, _, hd⟩ => ⟨hlow, hd⟩, fun ⟨hlow, hd⟩ => ⟨hlow, rfl, rfl, hd⟩⟩
  rw [hget, hvert]
  by_cases hlow : (p.cycle.units.get u).role = .lowered
  · by_cases hd : v.depth - 100 ≤ unitDepth p u
    · simpa [hcomes.2 ⟨hlow, hd⟩] using hdeep hlow hd
    · have hnot : ¬ comesToDepth (fun _ => true) (setPenetrating p) u = true := fun hc => hd (hcomes.1 hc).2
      simpa [hnot, lowered_eq, hlow] using hshort hlow hd
  · have hnot : ¬ comesToDepth (fun _ => true) (setPenetrating p) u = true := fun hc => hlow (hcomes.1 hc).1
    simpa [hnot, lowered_eq, hlow] using hother hlow

theorem enterPenetrating_reaches (hv : p.cycle.values = some v) (h : Penetrates p v units vertical) :
    enterPenetrating p = afterDepth (penetrateBy v.insertions) (penetratingPart p units vertical) := by
  rw [enterPenetrating, cycleInsertions_of_values hv, penetrateBy, setPenetrating_reaches hv h]

/-- R157: with a LOWERED unit not yet deep the cycle penetrates. -/
theorem enterPenetrating_waits (hv : p.cycle.values = some v) (h : Penetrates p v units vertical) {u : TampUnit}
    (hlow : (p.cycle.units.get u).role = .lowered) (hd : ¬ v.depth - 100 ≤ unitDepth p u) :
    enterPenetrating p = penetratingPart p units vertical := by
  refine (enterPenetrating_reaches hv h).trans (afterDepth_waits (u := u) ((h.role u).trans hlow) ?_)
  rw [show (penetratingPart p units vertical).cycle.units = units from rfl, ((h u).2.1 hlow hd).1]

/-- R157: with every LOWERED unit deep the cycle goes on to SQUEEZING at once. -/
theorem enterPenetrating_goes (hv : p.cycle.values = some v) (h : Penetrates p v units vertical)
    (hdeep : ∀ u, (p.cycle.units.get u).role = .lowered → v.depth - 100 ≤ unitDepth p u) :
    enterPenetrating p = enterSqueezing (penetratingPart p units vertical) := by
  refine (enterPenetrating_reaches hv h).trans ((afterDepth_goes fun u hlow => ?_).trans ?_)
  · have hlow' := (h.role u).symm.trans hlow
    rw [show (penetratingPart p units vertical).cycle.units = units from rfl, ((h u).1 hlow' (hdeep u hlow')).1]
  · refine enterSqueezingWith_congr _ fun r hvalues hdone hlt => ?_
    have hinsertions : cycleInsertions r = v.insertions := cycleInsertions_of_values (hvalues.trans hv)
    rw [enterPenetrating]
    apply penetrateBy_congr <;> omega

end

/-! ### Entering SQUEEZING (R158) -/

section
variable {p : Part} {v : CycleValues} {units : PerUnit UnitState} {squeeze : PerUnit Bool}

/-- R158: the units and the squeeze outputs at the entry to SQUEEZING. -/
def Squeezes (p : Part) (v : CycleValues) (units : PerUnit UnitState) (squeeze : PerUnit Bool) : Prop :=
  ∀ u, ((p.cycle.units.get u).role = .lowered → ¬ v.threshold ≤ driveValue p (pressureChannel u) → squeeze.get u = true ∧
      units.get u = { p.cycle.units.get u with depthReached := unitDepth p u }) ∧
    ((p.cycle.units.get u).role = .lowered → v.threshold ≤ driveValue p (pressureChannel u) → squeeze.get u = false ∧
      units.get u = { p.cycle.units.get u with depthReached := unitDepth p u, squeezeEnded := true }) ∧
    ((p.cycle.units.get u).role ≠ .lowered → squeeze.get u = false ∧ units.get u = p.cycle.units.get u)

/-- R158: the part in SQUEEZING. -/
def squeezingPart (p : Part) (v : CycleValues) (units : PerUnit UnitState) (squeeze : PerUnit Bool) : Part :=
  { p with cycle := { p.cycle with
      phase := .squeezing, phaseTimer := some (.squeeze v.squeezeTime), units := units, squeeze := squeeze } }

/-- R158: the part at the entry to SQUEEZING, before the sides' pressures are read. -/
def setSqueezing (p : Part) : Part :=
  p.withCycle { p.cycle with
    phase := .squeezing, phaseTimer := some (.squeeze (cycleSqueezeTime p))
    units := mapUnits p fun u s => if s.role = .lowered then { s with depthReached := unitDepth p u } else s
    squeeze := PerUnit.make (lowered p) }

theorem Squeezes.role (h : Squeezes p v units squeeze) (u : TampUnit) : (units.get u).role = (p.cycle.units.get u).role := by
  obtain ⟨hsoft, hfull, hother⟩ := h u
  by_cases hlow : (p.cycle.units.get u).role = .lowered
  · by_cases hf : v.threshold ≤ driveValue p (pressureChannel u)
    · rw [(hfull hlow hf).2]
    · rw [(hsoft hlow hf).2]
  · rw [(hother hlow).2]

theorem setSqueezing_ends (hv : p.cycle.values = some v)
    (hon : ∀ u, (p.cycle.units.get u).role = .lowered → (p.cycle.units.get u).squeezeEnded = false)
    (h : Squeezes p v units squeeze) :
    endSqueezeOf (sideAtThreshold (setSqueezing p)) false (setSqueezing p) = squeezingPart p v units squeeze := by
  have htime : cycleSqueezeTime p = v.squeezeTime := by rw [cycleSqueezeTime, hv]; rfl
  refine (endSqueezeOf_eq (p := setSqueezing p) (units := units) (squeeze := squeeze) fun u => ?_).trans
    (by rw [squeezingPart, ← htime]; rfl)
  obtain ⟨hsoft, hfull, hother⟩ := h u
  have hget : (setSqueezing p).cycle.units.get u = if (p.cycle.units.get u).role = .lowered then
      { p.cycle.units.get u with depthReached := unitDepth p u } else p.cycle.units.get u := PerUnit.get_make _ u
  have hout : (setSqueezing p).cycle.squeeze.get u = lowered p u := PerUnit.get_make _ u
  have hside : sideAtThreshold (setSqueezing p) u = decide (v.threshold ≤ driveValue p (pressureChannel u)) := by
    rw [sideAtThreshold, cycleThreshold_of_values (p := setSqueezing p) hv]
    rfl
  have hends : squeezeEnds (sideAtThreshold (setSqueezing p)) (setSqueezing p) u = true ↔
      (p.cycle.units.get u).role = .lowered ∧ v.threshold ≤ driveValue p (pressureChannel u) := by
    rw [squeezeEnds_iff, hget, hside, decide_eq_true_eq]
    by_cases hlow : (p.cycle.units.get u).role = .lowered
    · simp [hlow, hon u hlow]
    · simp [hlow]
  rw [withSqueezeEnded_false, hget, hout, lowered_eq]
  by_cases hlow : (p.cycle.units.get u).role = .lowered
  · by_cases hf : v.threshold ≤ driveValue p (pressureChannel u)
    · simpa [hends.2 ⟨hlow, hf⟩, hlow] using (hfull hlow hf).symm
    · have hnot : ¬ squeezeEnds (sideAtThreshold (setSqueezing p)) (setSqueezing p) u = true := fun hc => hf (hends.1 hc).2
      simpa [hnot, hlow] using (hsoft hlow hf).symm
  · have hnot : ¬ squeezeEnds (sideAtThreshold (setSqueezing p)) (setSqueezing p) u = true := fun hc => hlow (hends.1 hc).1
    simpa [hnot, hlow] using (hother hlow).symm

/-- R158: at the entry to SQUEEZING the sides at the threshold are done with. -/
theorem enterSqueezing_eq (hv : p.cycle.values = some v)
    (hon : ∀ u, (p.cycle.units.get u).role = .lowered → (p.cycle.units.get u).squeezeEnded = false)
    (h : Squeezes p v units squeeze) :
    enterSqueezing p = afterSqueeze enterPenetrating (squeezingPart p v units squeeze) :=
  congrArg (afterSqueeze enterPenetrating) (setSqueezing_ends hv hon h)

end

/-! ### The timers of an insertion (R157, R158) -/

section
variable {s : State} {units : PerUnit UnitState}

theorem penetrationShort_eq {p : Part} {vertical : PerUnit Vertical}
    (h : ∀ u, ((p.cycle.units.get u).role = .lowered ∧ (p.cycle.units.get u).atDepth = false →
        units.get u = { p.cycle.units.get u with flags := { (p.cycle.units.get u).flags with penShort := true } } ∧
          vertical.get u = .rest) ∧
      (¬ ((p.cycle.units.get u).role = .lowered ∧ (p.cycle.units.get u).atDepth = false) →
        units.get u = p.cycle.units.get u ∧ vertical.get u = p.cycle.vertical.get u)) :
    penetrationShort p = withDemands p units vertical := by
  have hshort (u : TampUnit) : (lowered p u && !(p.unit u).atDepth) = true ↔
      (p.cycle.units.get u).role = .lowered ∧ (p.cycle.units.get u).atDepth = false := by
    simp [lowered_eq, Part.unit]
  have hunits : mapUnits p (fun u s => if lowered p u && !(p.unit u).atDepth then
      { s with flags := { s.flags with penShort := true } } else s) = units := mapUnits_eq fun u => by
    by_cases hu : (p.cycle.units.get u).role = .lowered ∧ (p.cycle.units.get u).atDepth = false
    · rw [((h u).1 hu).1, if_pos ((hshort u).2 hu)]
    · rw [((h u).2 hu).1, if_neg fun hc => hu ((hshort u).1 hc)]
  have hvertical : PerUnit.make (fun u => if lowered p u && !(p.unit u).atDepth then Vertical.rest else p.cycle.vertical.get u) =
      vertical := PerUnit.eq_of_get fun u => by
    rw [PerUnit.get_make]
    by_cases hu : (p.cycle.units.get u).role = .lowered ∧ (p.cycle.units.get u).atDepth = false
    · rw [((h u).1 hu).2, if_pos ((hshort u).2 hu)]
    · rw [((h u).2 hu).2, if_neg fun hc => hu ((hshort u).1 hc)]
  rw [← hunits, ← hvertical]
  rfl

theorem squeezeTimerRuns_iff (c : Cycle) : squeezeTimerRuns c = true ↔ ∃ ms, c.phaseTimer = some (.squeeze ms) := by
  unfold squeezeTimerRuns
  split
  · next ms h => exact iff_of_true rfl ⟨ms, h⟩
  · next h => exact iff_of_false nofun fun ⟨ms, hms⟩ => h ms hms

theorem exec_penetrationTimeout_stays (hp : s.part.powered = true)
    (h : s.part.cycle.phase ≠ .penetrating ∨ s.part.cycle.phaseTimer ≠ some .penetration) :
    exec .penetrationTimeout s = .next s := by
  have hexec : exec .penetrationTimeout s = .next (s.withPart s.part) := by
    show execPenetrationTimeout s = _
    rw [execPenetrationTimeout, eventOf_powered hp, if_neg fun hc => h.elim (· hc.1) (· hc.2)]
  exact hexec

theorem exec_squeezeTimerExpiry_stays (hp : s.part.powered = true)
    (h : s.part.cycle.phase ≠ .squeezing ∨ ∀ ms, s.part.cycle.phaseTimer ≠ some (.squeeze ms)) :
    exec .squeezeTimerExpiry s = .next s := by
  have hexec : exec .squeezeTimerExpiry s = .next (s.withPart s.part) := by
    show execSqueezeTimerExpiry s = _
    rw [execSqueezeTimerExpiry, eventOf_powered hp, if_neg fun hc => ?_]
    obtain ⟨ms, hms⟩ := (squeezeTimerRuns_iff _).1 hc.2
    exact h.elim (· hc.1) (· ms hms)
  exact hexec

end

/-- Settles O46. -/
theorem anInsertionGoesThroughItsPhases : Obligations.AnInsertionGoesThroughItsPhases := by
  unfold Obligations.AnInsertionGoesThroughItsPhases
  refine ⟨fun p v units vertical hv => ?_, fun p v units vertical hv => ?_, fun s units vertical hp => ?_,
    fun p v units squeeze hv => ?_, fun s ms units hp hphase htimer hunits => ?_, fun s hp => exec_squeezeTimerExpiry_stays hp⟩
  · intro low deep ⟨u, hlow, hd⟩ hspec
    exact enterPenetrating_waits (v := v) hv hspec hlow hd
  · intro low hall hspec
    refine enterPenetrating_goes (v := v) hv (fun u => ?_) hall
    obtain ⟨hlow, hother⟩ := hspec u
    exact ⟨fun h _ => hlow h, fun h hshort => absurd (hall u h) hshort, hother⟩
  · intro p
    refine ⟨exec_penetrationTimeout_stays hp, fun hphase htimer hspec => ?_⟩
    have hshort : penetrationShort p = withDemands p units vertical := penetrationShort_eq fun u => by
      have hu := hspec u
      simp only at hu
      split at hu
      · next hc => exact ⟨fun _ => hu, fun hnot => absurd hc hnot⟩
      · next hc => exact ⟨fun hpos => absurd hpos hc, fun _ => hu⟩
    show execPenetrationTimeout s = _
    rw [execPenetrationTimeout, eventOf_powered hp, if_pos ⟨hphase, htimer⟩]
    exact congrArg (fun q => Host.Outcome.next (s.withPart (enterSqueezing q))) hshort
  · intro low full ⟨w, hw⟩ hon hspec q
    have hsqueezes : Squeezes p v units squeeze := hspec
    have hentry : enterSqueezing p = afterSqueeze enterPenetrating q := enterSqueezing_eq hv hon hsqueezes
    refine ⟨fun ⟨u, hlow, hsoft⟩ => hentry.trans (afterSqueeze_waits (u := u) ((hsqueezes.role u).trans hlow) ?_), fun hall => ?_⟩
    · rw [show q.cycle.units = units from rfl, ((hspec u).1 hlow hsoft).2]
      exact hon u hlow
    · rw [hentry, afterSqueeze_goes fun u hu => ?_]
      · exact endSqueezing_goesToRaising q
      · have hlow := (hsqueezes.role u).symm.trans hu
        rw [show q.cycle.units = units from rfl, ((hspec u).2.1 hlow (hall u hlow)).2]
  · have hends : endSqueezeOf (fun _ => true) true s.part = withSqueezes s.part units
        (PerUnit.make fun u => if squeezeEnds (fun _ => true) s.part u then false else s.part.cycle.squeeze.get u) :=
      endSqueezeOf_eq fun u => by
        refine ⟨?_, PerUnit.get_make _ u⟩
        have hiff := squeezeEnds_iff (fun _ => true) s.part u
        by_cases hu : squeezeEnds (fun _ => true) s.part u = true
        · obtain ⟨hlow, hon, _⟩ := hiff.1 hu
          rw [if_pos hu, withSqueezeEnded_true, (hunits u).1 hlow hon]
        · rw [if_neg hu, (hunits u).2]
          by_cases hlow : (s.part.cycle.units.get u).role = .lowered
          · exact .inr (Bool.not_eq_false _ ▸ fun hon => hu (hiff.2 ⟨hlow, hon, rfl⟩))
          · exact .inl hlow
    refine ⟨endSqueezing enterPenetrating (endSqueezeOf (fun _ => true) true s.part), ?_, ?_⟩
    · show execSqueezeTimerExpiry s = _
      rw [execSqueezeTimerExpiry, eventOf_powered hp, if_pos ⟨hphase, (squeezeTimerRuns_iff _).2 ⟨ms, htimer⟩⟩]
    · rw [hends]
      exact endSqueezing_goesToRaising (withSqueezes s.part units _)

/-! ### The samples of a cycle (R147, R157 to R159, R164, R167) -/

theorem PerUnit.get_set {α : Type} (t : PerUnit α) (u w : TampUnit) (a : α) :
    (t.set u a).get w = if w = u then a else t.get w := by
  cases u <;> cases w <;> rfl

section
variable {s : State} {level : Int}

theorem exec_depthSample (u : TampUnit) (hp : s.part.powered = true) (hready : s.part.phase = .ready) {q : Part}
    (hq : depthSample u (recordSample s.part (depthChannel u) level) = q) :
    exec (.channelSample (depthChannel u) level) s = .next (s.withPart q) := by
  have hevent : exec (.channelSample (depthChannel u) level) s =
      .next (s.withPart (sampleEvent (depthChannel u) level s.part)) := eventOf_powered hp
  have hdrive : driveSample (depthChannel u) (recordSample s.part (depthChannel u) level) =
      recordSample s.part (depthChannel u) level := by
    cases u <;> rfl
  have hcycle (p : Part) : cycleSample (depthChannel u) p = depthSample u p := by cases u <;> rfl
  rw [hevent, sampleEvent_ready _ _ hready, hdrive, hcycle, hq]

theorem exec_pressureSample {ch : Channel} (hch : ch = .pl ∨ ch = .pr) (hp : s.part.powered = true)
    (hready : s.part.phase = .ready) {q : Part} (hq : pressureSample ch (recordSample s.part ch level) = q) :
    exec (.channelSample ch level) s = .next (s.withPart q) := by
  have hevent : exec (.channelSample ch level) s = .next (s.withPart (sampleEvent ch level s.part)) := eventOf_powered hp
  have hdrive : driveSample ch (recordSample s.part ch level) = recordSample s.part ch level := by
    rcases hch with rfl | rfl <;> rfl
  have hcycle (p : Part) : cycleSample ch p = pressureSample ch p := by rcases hch with rfl | rfl <;> rfl
  rw [hevent, sampleEvent_ready _ _ hready, hdrive, hcycle, hq]

end

section
variable {p : Part} {v : CycleValues} {u : TampUnit}

theorem depthSample_penetrating (hphase : p.cycle.phase = .penetrating) :
    depthSample u p = afterDepth enterPenetrating (reachDepthOf (fun w => decide (w = u)) p) := by
  unfold depthSample
  rw [hphase]

theorem reachDepthOf_none {which : TampUnit → Bool} (h : ∀ w, comesToDepth which p w = false) : reachDepthOf which p = p :=
  reachDepthOf_eq (units := p.cycle.units) (vertical := p.cycle.vertical) fun w => by simp [h w]

/-- R157: the one sampled unit comes to depth. -/
theorem reachDepthOf_one (hv : p.cycle.values = some v) (hlow : (p.cycle.units.get u).role = .lowered)
    (hnot : (p.cycle.units.get u).atDepth = false) (hdeep : v.depth - 100 ≤ unitDepth p u) :
    reachDepthOf (fun w => decide (w = u)) p = withDemands p
      (p.cycle.units.set u { p.cycle.units.get u with atDepth := true }) (p.cycle.vertical.set u .rest) := by
  refine reachDepthOf_eq fun w => ?_
  have hcomes : comesToDepth (fun w => decide (w = u)) p w = true ↔ w = u := by
    rw [comesToDepth_iff _ hv, decide_eq_true_eq]
    refine ⟨fun ⟨_, _, hw, _⟩ => hw, ?_⟩
    rintro rfl
    exact ⟨hlow, hnot, rfl, hdeep⟩
  rw [PerUnit.get_set, PerUnit.get_set]
  by_cases hw : w = u
  · rw [if_pos (hcomes.2 hw), if_pos (hcomes.2 hw), if_pos hw, if_pos hw, hw]
    exact ⟨rfl, rfl⟩
  · simp [mt hcomes.1 hw, hw]

/-- R157: a sample by which its unit does not come to depth leaves every unit as it is. -/
theorem reachDepthOf_stays (hv : (p.cycle.units.get u).role = .lowered → (p.cycle.units.get u).atDepth = false →
      ¬ cycleDepth p - 100 ≤ unitDepth p u) :
    reachDepthOf (fun w => decide (w = u)) p = p := by
  refine reachDepthOf_none fun w => ?_
  rw [Bool.eq_false_iff]
  intro hc
  simp only [comesToDepth, lowered_eq, Part.unit, Bool.and_eq_true, Bool.not_eq_true', decide_eq_true_eq] at hc
  obtain ⟨⟨⟨hlow, hnot⟩, rfl⟩, hdeep⟩ := hc
  exact hv hlow hnot hdeep

/-- R159: a clear unit is marked by its sample, and its demand becomes 0. -/
def withClear (p : Part) (u : TampUnit) : Part :=
  withDemands p (p.cycle.units.set u { p.cycle.units.get u with clear := true }) (p.cycle.vertical.set u .rest)

theorem depthSample_raising (hphase : p.cycle.phase = .raising) : depthSample u p =
    if unitClear p u then (if allClear (withClear p u) then endRaise enterPenetrating (withClear p u) else withClear p u)
    else p := by
  unfold depthSample
  rw [hphase]
  rfl

theorem depthSample_lockout (hphase : p.cycle.phase = .lockout) : depthSample u p =
    afterLockoutDepth (if p.cycle.lockoutRaise = true ∧ unitDepth p u ≤ 200 then
      { p with cycle := { p.cycle with vertical := p.cycle.vertical.set u .rest } } else p) := by
  unfold depthSample
  rw [hphase]
  refine congrArg afterLockoutDepth ?_
  by_cases h : p.cycle.lockoutRaise = true ∧ unitDepth p u ≤ 200
  · rw [if_pos h]
    exact if_pos (by simp [h.1, unitClear_eq, h.2])
  · rw [if_neg h]
    refine if_neg fun hc => h ?_
    simpa [unitClear_eq] using hc

theorem pressureSample_squeezing {ch : Channel} (hphase : p.cycle.phase = .squeezing) : pressureSample ch p =
    afterSqueeze enterPenetrating (endSqueezeOf (fun u => decide (pressureChannel u = ch) && sideAtThreshold p u) false p) := by
  unfold pressureSample
  rw [hphase]

/-- R158: the units whose squeeze ends at a sample of their side. -/
theorem squeezeEnds_sample {ch : Channel} (hv : p.cycle.values = some v) (u : TampUnit) :
    squeezeEnds (fun u => decide (pressureChannel u = ch) && sideAtThreshold p u) p u = true ↔
      (((p.cycle.units.get u).role = .lowered ∧ (p.cycle.units.get u).squeezeEnded = false) ∧ pressureChannel u = ch) ∧
        v.threshold ≤ driveValue p ch := by
  rw [squeezeEnds_iff, Bool.and_eq_true, decide_eq_true_eq, sideAtThreshold, decide_eq_true_eq, cycleThreshold_of_values hv]
  constructor
  · rintro ⟨hlow, hon, rfl, hfull⟩
    exact ⟨⟨⟨hlow, hon⟩, rfl⟩, hfull⟩
  · rintro ⟨⟨⟨hlow, hon⟩, rfl⟩, hfull⟩
    exact ⟨hlow, hon, rfl, hfull⟩

end

/-- R157: what a sample of a unit's depth brings about in PENETRATING. -/
theorem depthSample_penetrates {p : Part} {v : CycleValues} {u : TampUnit} (hphase : p.cycle.phase = .penetrating)
    (hv : p.cycle.values = some v) (hlow : (p.cycle.units.get u).role = .lowered) (hnot : (p.cycle.units.get u).atDepth = false) :
    (unitDepth p u < v.depth - 100 → depthSample u p = p) ∧
    (v.depth - 100 ≤ unitDepth p u →
      let q := withDemands p (p.cycle.units.set u { p.cycle.units.get u with atDepth := true }) (p.cycle.vertical.set u .rest)
      ((∃ w, w ≠ u ∧ (p.cycle.units.get w).role = .lowered ∧ (p.cycle.units.get w).atDepth = false) → depthSample u p = q) ∧
      ((∀ w, w ≠ u → (p.cycle.units.get w).role = .lowered → (p.cycle.units.get w).atDepth = true) →
        depthSample u p = enterSqueezing q)) := by
  refine ⟨fun hshort => ?_, fun hdeep => ?_⟩
  · rw [depthSample_penetrating hphase, reachDepthOf_stays, afterDepth_waits hlow hnot]
    intro _ _
    rw [cycleDepth_of_values hv]
    omega
  · intro q
    have hget (w : TampUnit) : q.cycle.units.get w =
        if w = u then { p.cycle.units.get u with atDepth := true } else p.cycle.units.get w := PerUnit.get_set _ _ _ _
    rw [depthSample_penetrating hphase, reachDepthOf_one hv hlow hnot hdeep]
    refine ⟨fun ⟨w, hw, hlow', hnot'⟩ => afterDepth_waits (u := w) ?_ ?_, fun hall => afterDepth_goes fun w => ?_⟩
    · exact (congrArg UnitState.role ((hget w).trans (if_neg hw))).trans hlow'
    · exact (congrArg UnitState.atDepth ((hget w).trans (if_neg hw))).trans hnot'
    · rw [show (withDemands p _ _).cycle.units.get w = _ from hget w]
      split
      · exact fun _ => rfl
      · next hw => exact hall w hw

/-- R159, R164: what a sample of a unit's depth brings about in the raise. -/
theorem depthSample_raises {p : Part} {u : TampUnit} (hphase : p.cycle.phase = .raising) :
    (200 < unitDepth p u → depthSample u p = p) ∧
    (unitDepth p u ≤ 200 →
      ((∃ w, 200 < unitDepth p w) → depthSample u p = withClear p u) ∧
      ((∀ w, unitDepth p w ≤ 200) → depthSample u p = endRaise enterPenetrating (withClear p u))) := by
  rw [depthSample_raising hphase]
  refine ⟨fun hlow => if_neg ?_, fun hclear => ?_⟩
  · rw [unitClear_eq, decide_eq_true_eq]
    omega
  · rw [if_pos (by rw [unitClear_eq]; exact decide_eq_true hclear)]
    exact ⟨fun hlow => if_neg (by rw [(not_allClear_iff (withClear p u)).2 hlow]; nofun),
      fun hall => if_pos ((allClear_iff (withClear p u)).2 hall)⟩

/-- R158: what a sample of a side's pressure brings about in SQUEEZING. -/
theorem pressureSample_squeezes {p : Part} {v : CycleValues} {ch : Channel} (hphase : p.cycle.phase = .squeezing)
    (hv : p.cycle.values = some v) :
    let squeezed := fun u => (p.cycle.units.get u).role = .lowered ∧ (p.cycle.units.get u).squeezeEnded = false
    let ends := fun u => squeezed u ∧ pressureChannel u = ch
    ((∃ w, squeezed w) → driveValue p ch < v.threshold → pressureSample ch p = p) ∧
    (∀ (units : PerUnit UnitState) (squeeze : PerUnit Bool), v.threshold ≤ driveValue p ch →
      (∀ u, (ends u → squeeze.get u = false ∧ units.get u = { p.cycle.units.get u with squeezeEnded := true }) ∧
        (¬ ends u → squeeze.get u = p.cycle.squeeze.get u ∧ units.get u = p.cycle.units.get u)) →
      ((∃ w, squeezed w ∧ pressureChannel w ≠ ch) → pressureSample ch p = withSqueezes p units squeeze) ∧
      ((∀ w, squeezed w → pressureChannel w = ch) →
        pressureSample ch p = endSqueezing enterPenetrating (withSqueezes p units squeeze))) := by
  intro squeezed ends
  refine ⟨fun ⟨w, hlow, hon⟩ hsoft => ?_, fun units squeeze hfull hspec => ?_⟩
  · have hnone (u : TampUnit) :
        ¬ squeezeEnds (fun u => decide (pressureChannel u = ch) && sideAtThreshold p u) p u = true :=
      fun hc => absurd ((squeezeEnds_sample hv u).1 hc).2 (not_le.2 hsoft)
    rw [pressureSample_squeezing hphase, endSqueezeOf_eq (units := p.cycle.units) (squeeze := p.cycle.squeeze)
      fun u => by simp [hnone u]]
    exact afterSqueeze_waits hlow hon
  · have hended : endSqueezeOf (fun u => decide (pressureChannel u = ch) && sideAtThreshold p u) false p =
        withSqueezes p units squeeze := endSqueezeOf_eq fun u => by
      have hiff := squeezeEnds_sample (ch := ch) hv u
      by_cases hu : ends u
      · rw [if_pos (hiff.2 ⟨hu, hfull⟩), if_pos (hiff.2 ⟨hu, hfull⟩), withSqueezeEnded_false]
        exact ((hspec u).1 hu).symm
      · rw [if_neg fun hc => hu (hiff.1 hc).1, if_neg fun hc => hu (hiff.1 hc).1]
        exact ((hspec u).2 hu).symm
    rw [pressureSample_squeezing hphase, hended]
    refine ⟨fun ⟨w, hw, hside⟩ => ?_, fun hall => afterSqueeze_goes fun w => ?_⟩
    · have hkept : (withSqueezes p units squeeze).cycle.units.get w = p.cycle.units.get w :=
        ((hspec w).2 fun h => hside h.2).2
      exact afterSqueeze_waits (u := w) (by rw [hkept]; exact hw.1) (by rw [hkept]; exact hw.2)
    · change (units.get w).role = .lowered → (units.get w).squeezeEnded = true
      by_cases hw : ends w
      · rw [((hspec w).1 hw).2]
        exact fun _ => rfl
      · rw [((hspec w).2 hw).2]
        intro hlow
        rw [← Bool.not_eq_false]
        exact fun hon => hw ⟨⟨hlow, hon⟩, hall w ⟨hlow, hon⟩⟩

/-- Settles O47. -/
theorem samplesMoveTheCycleOn : Obligations.SamplesMoveTheCycleOn := by
  unfold Obligations.SamplesMoveTheCycleOn
  refine fun s level hp hready => ⟨fun u => ?_, fun ch hch => ?_⟩
  · intro ch p a
    have hexec {q : Part} (hq : depthSample u p = q) : exec (.channelSample ch level) s = .next (s.withPart q) :=
      exec_depthSample u hp hready hq
    refine ⟨fun hphase hlow hnot v hv => ?_, fun hphase hdone => ?_, fun hphase => hexec ?_, fun hphase => ?_, fun hphase => ?_⟩
    · obtain ⟨hshort, hdeep⟩ := depthSample_penetrates (p := p) hphase hv hlow hnot
      exact ⟨fun h => hexec (hshort h), fun h => ⟨fun hw => hexec ((hdeep h).1 hw), fun hall => hexec ((hdeep h).2 hall)⟩⟩
    · have hstays : reachDepthOf (fun w => decide (w = u)) p = p :=
        reachDepthOf_stays fun hlow hnot => hdone.elim (absurd hlow) fun hat => by rw [hat] at hnot; cases hnot
      have hsample : depthSample u p = afterDepth enterPenetrating p :=
        (depthSample_penetrating hphase).trans (congrArg (afterDepth enterPenetrating) hstays)
      exact ⟨fun ⟨w, hlow, hnot⟩ => hexec (hsample.trans (afterDepth_waits hlow hnot)),
        fun hall => hexec (hsample.trans (afterDepth_goes hall))⟩
    · unfold depthSample
      rw [hphase]
    · obtain ⟨hlow, hclear⟩ := depthSample_raises (p := p) (u := u) hphase
      refine ⟨fun h => hexec (hlow h), fun h => ⟨fun hw => hexec ((hclear h).1 hw), fun hall => ⟨fun hstop hmore => ?_, fun hend => ?_⟩⟩⟩
      · exact hexec (((hclear h).2 hall).trans (endRaise_penetrates (p := withClear p u) hstop hmore))
      · exact hexec (((hclear h).2 hall).trans (endRaise_releases (p := withClear p u) hend))
    · refine ⟨fun hlow => hexec ((depthSample_lockout hphase).trans (afterLockoutDepth_low ?_)),
        fun hall => hexec ((depthSample_lockout hphase).trans ?_)⟩
      · rw [not_allClear_iff]
        split <;> exact hlow
      · split <;> exact afterLockoutDepth_clear ((allClear_iff _).2 hall)
  · intro p
    have hexec {q : Part} (hq : pressureSample ch p = q) : exec (.channelSample ch level) s = .next (s.withPart q) :=
      exec_pressureSample hch hp hready hq
    refine ⟨fun hphase => hexec ?_, fun v hphase hv => ?_⟩
    · unfold pressureSample
      split
      · next h => exact absurd h hphase
      · rfl
    · intro squeezed ends
      obtain ⟨hsoft, hfull⟩ := pressureSample_squeezes (p := p) (ch := ch) hphase hv
      refine ⟨fun hw h => hexec (hsoft hw h), fun units squeeze h hspec => ⟨fun hw => hexec ((hfull units squeeze h hspec).1 hw),
        fun _ hall => ⟨_, hexec ((hfull units squeeze h hspec).2 hall), endSqueezing_goesToRaising _⟩⟩⟩

end Sys2Proof.Machine
end

section
/-! PROOF. What a sample leaves in the histories, and the readings over them (R13 to R17, R203). -/

namespace Sys2Proof.Machine
open Sys2Proof Sys2Proof.Safety

/-! ### The history of a channel (R13) -/

theorem convert_eq (level : Int) : convert level = max (-32768) (min 32767 level) := clampTo_eq_max_min (by decide : (-32768 : Int) ≤ 32767) level

theorem appendCount_eq (h : List Int) (count : Int) :
    appendCount h count = (h ++ [count]).drop ((h ++ [count]).length - 64) := by
  rw [appendCount, List.length_append, List.length_singleton]
  congr 1

theorem PerArm.eq_of_get {α : Type} {a b : PerArm α} (h : ∀ x, a.get x = b.get x) : a = b := by
  cases a
  cases b
  simp only [PerArm.mk.injEq]
  exact ⟨h .loF, h .loA, h .liF, h .liA, h .riF, h .riA, h .roF, h .roA⟩

theorem recordSample_eq (p : Part) (ch : Channel) (level : Int) : recordSample p ch level =
    { p with history :=
        p.history.set ch ((p.history.get ch ++ [max (-32768) (min 32767 level)]).drop
          ((p.history.get ch ++ [max (-32768) (min 32767 level)]).length - 64)) } := by
  rw [recordSample, convert_eq, appendCount_eq]

/-! ### A sample that does nothing more -/

section
variable {p : Part} {ch : Channel}

theorem driveSample_idle (h : ∀ x, axisOfChannel ch = some x → (p.drive.axes.get x).phase ≠ .moving ∧
      (p.drive.axes.get x).phase ≠ .settled) : driveSample ch p = p := by
  unfold driveSample
  cases hx : axisOfChannel ch with
  | none => rfl
  | some x =>
    obtain ⟨hmoving, hsettled⟩ := h x hx
    have htakes : ¬ takesUpdates (p.drive.axes.get x) = true := fun ht => (takesUpdates_iff.1 ht).2.elim hmoving hsettled
    have hupdate : updateAxis p x = (p, false) := if_neg htakes
    simp only [hupdate]

/-- Log entry 10: the lockout outputs at rest with no lockout raise, as after reset. -/
def LockoutAtRest (c : Cycle) : Prop :=
  c.phase = .lockout ∧ c.lockoutRaise = false ∧ (∀ u, c.vertical.get u = .rest) ∧ ∀ x, c.fold.get x = false

theorem depthSample_atRest (u : TampUnit) (h : LockoutAtRest p.cycle) : depthSample u p = p := by
  obtain ⟨hphase, hraise, hvertical, hfold⟩ := h
  have hdemands : p.cycle.vertical = noVertical := PerUnit.eq_of_get fun w => (hvertical w).trans (by cases w <;> rfl)
  have harms : p.cycle.fold = noArms := PerArm.eq_of_get fun x => (hfold x).trans (by cases x <;> rfl)
  rw [depthSample_lockout hphase, if_neg (by rw [hraise]; exact fun hc => nomatch hc.1)]
  cases hclear : allClear p with
  | false => exact afterLockoutDepth_low hclear
  | true =>
    rw [afterLockoutDepth_clear hclear, hraise, ← hdemands, ← harms, if_neg nofun]
    have hkept : ({ p.cycle with lockoutRaise := false } : Cycle) = p.cycle := by rw [← hraise]
    exact congrArg p.withCycle hkept

theorem cycleSample_idle (h : p.cycle.phase ∈ [CyclePhase.idle, .positioning, .releasing] ∨
      ch ∈ [Channel.ln, .lvl, .lvr, .xl, .axs] ∨ LockoutAtRest p.cycle) : cycleSample ch p = p := by
  rcases h with hphase | hch | hrest
  · have hdepth (u : TampUnit) : depthSample u p = p := by
      simp only [List.mem_cons, List.not_mem_nil, or_false] at hphase
      unfold depthSample
      rcases hphase with h | h | h <;> rw [h]
    have hpressure : pressureSample ch p = p := by
      simp only [List.mem_cons, List.not_mem_nil, or_false] at hphase
      unfold pressureSample
      rcases hphase with h | h | h <;> rw [h]
    unfold cycleSample
    split
    · exact hdepth _
    · rw [hpressure, ite_self]
  · simp only [List.mem_cons, List.not_mem_nil, or_false] at hch
    rcases hch with rfl | rfl | rfl | rfl | rfl <;> rfl
  · have hpressure : pressureSample ch p = p := by
      unfold pressureSample
      rw [hrest.1]
    unfold cycleSample
    split
    · exact depthSample_atRest _ hrest
    · rw [hpressure, ite_self]

end

/-! ### The readings (R14 to R17) -/

theorem calibrate_bounds {st : Settings} {ch : Channel} {m : Int} (hm : -32768 ≤ m ∧ m ≤ 32767)
    (hz : -32768 ≤ st.zero.get ch ∧ st.zero.get ch ≤ 32767) (hk : -8192 ≤ st.sensitivity.get ch ∧ st.sensitivity.get ch ≤ 8192) :
    (calibrate st ch m).natAbs ≤ 524280 := by
  have hprod : -(65535 * 8192) ≤ (m - st.zero.get ch) * st.sensitivity.get ch ∧
      (m - st.zero.get ch) * st.sensitivity.get ch ≤ 65535 * 8192 := by
    have hx : |m - st.zero.get ch| ≤ 65535 := abs_le.2 ⟨by omega, by omega⟩
    have hy : |st.sensitivity.get ch| ≤ 8192 := abs_le.2 hk
    rw [← abs_le, abs_mul]
    exact mul_le_mul hx hy (abs_nonneg _) (by norm_num)
  have hlow : -524280 ≤ calibrate st ch m := le_roundDiv (by norm_num) (by omega)
  have hhigh : calibrate st ch m ≤ 524280 := roundDiv_le (by norm_num) (by omega)
  omega

theorem calibratedMean_bounds {st : Settings} {ch : Channel} {counts : List Int} (h : ∀ c ∈ counts, -32768 ≤ c ∧ c ≤ 32767)
    (hz : -32768 ≤ st.zero.get ch ∧ st.zero.get ch ≤ 32767) (hk : -8192 ≤ st.sensitivity.get ch ∧ st.sensitivity.get ch ≤ 8192) :
    (calibratedMean st ch counts).natAbs ≤ 524280 := by
  unfold calibratedMean
  split
  · decide
  · exact calibrate_bounds (meanCount_bounds (by decide) (by decide) h) hz hk

theorem recentCounts_ne_nil {h : List Int} (hne : h ≠ []) : recentCounts h ≠ [] := by
  have hpos := List.length_pos_iff.2 hne
  rw [← List.length_pos_iff, recentCounts, List.length_drop]
  omega

/-- Settles O18. -/
theorem samplesGiveCalibratedMeans : Obligations.SamplesGiveCalibratedMeans := by
  unfold Obligations.SamplesGiveCalibratedMeans
  refine ⟨fun s ch level hp hwhen => ?_, fun p ch => ?_⟩
  · intro p h atRest
    have hrecorded : recordSample p ch level = { p with history := p.history.set ch (h.drop (h.length - 64)) } :=
      recordSample_eq p ch level
    let t := cycleSample ch (driveSample ch (recordSample p ch level))
    have hsettles : settlesWith p ch level = false := by
      rcases hwhen with hready | ⟨u, hu⟩
      · rw [settlesWith, show p.phase = .ready from hready]
        rfl
      · rw [settlesWith, Bool.and_eq_false_iff, ← Bool.not_eq_true (depthsReady _), depthsReady_iff]
        exact .inr fun hall => absurd (hall u) (not_le.2 hu)
    have hexec : exec (.channelSample ch level) s = .next (s.withPart t) := by
      have hevent : exec (.channelSample ch level) s = .next (s.withPart (sampleEvent ch level p)) := eventOf_powered hp
      rw [hevent, sampleEvent, hsettles]
      rfl
    have hground : t.ground = (recordSample p ch level).ground := sampled_ground p ch level
    have hhistory : t.history = p.history.set ch (h.drop (h.length - 64)) :=
      (congrArg Ground.history hground).trans (congrArg Part.history hrecorded)
    refine ⟨s.withPart t, hexec, hhistory, fun c hc => ?_, congrArg Ground.phase hground, congrArg Ground.travel hground,
      congrArg Ground.scanner hground, congrArg Ground.plan hground, congrArg Ground.store hground, fun haxis hquiet => ?_⟩
    · exact (congrArg (PerChannel.get · c) hhistory).trans ((PerChannel.get_set _ _ _ _).trans (if_neg hc))
    · have ht : t = recordSample p ch level := by
        have hdrive : driveSample ch (recordSample p ch level) = recordSample p ch level := driveSample_idle haxis
        exact (congrArg (cycleSample ch) hdrive).trans (cycleSample_idle (p := recordSample p ch level) hquiet)
      rw [ht, hrecorded]
  · intro h recent zero k
    refine ⟨fun hnil => ?_, fun hne => ⟨if_neg hne, if_neg (recentCounts_ne_nil hne), ?_⟩, fun hlegal hz hz' hk hk' => ?_⟩
    · have hempty : p.history.get ch = [] := hnil
      simp [measurementMean, driveValue, saturated, calibratedMean, recentCounts, hempty]
    · have hsat : saturated p ch = (h.isEmpty || h.any fun c => decide (c = -32768) || decide (c = 32767)) := rfl
      rw [hsat, Bool.or_eq_true, List.isEmpty_iff, or_iff_right hne, List.any_eq_true]
      simp only [Bool.or_eq_true, decide_eq_true_eq]
      constructor
      · rintro ⟨c, hc, rfl | rfl⟩
        exacts [.inl hc, .inr hc]
      · rintro (hc | hc)
        exacts [⟨_, hc, .inl rfl⟩, ⟨_, hc, .inr rfl⟩]
    · have hcounts := (hlegal ch).2
      exact ⟨calibratedMean_bounds hcounts ⟨hz, hz'⟩ ⟨hk, hk'⟩,
        calibratedMean_bounds (fun c hc => hcounts c (List.mem_of_mem_drop hc)) ⟨hz, hz'⟩ ⟨hk, hk'⟩⟩

end Sys2Proof.Machine
end

section
/-! PROOF. The cells of new ground and the body detection (R19 to R28). -/

namespace Sys2Proof.Machine
open Sys2Proof Sys2Proof.Safety

/-! ### The cells that an advance crosses (R19) -/

theorem mem_cellPositions (d : Direction) (old new x : Int) :
    x ∈ cellPositions d old new ↔ 10 ∣ x ∧ 0 < aheadBy d x old ∧ 0 ≤ aheadBy d new x := by
  cases d <;> simp only [cellPositions, List.mem_map, List.mem_range, aheadBy, dirSign]
  case ascending =>
    refine ⟨?_, fun ⟨⟨j, hj⟩, hold, hnew⟩ => ⟨(j - old / 10 - 1).toNat, ?_, ?_⟩⟩
    · rintro ⟨i, hi, rfl⟩
      exact ⟨⟨old / 10 + 1 + i, by ring⟩, by omega, by omega⟩
    · omega
    · omega
  case descending =>
    refine ⟨?_, fun ⟨⟨j, hj⟩, hold, hnew⟩ => ⟨(-((-old) / 10) - 1 - j).toNat, ?_, ?_⟩⟩
    · rintro ⟨i, hi, rfl⟩
      exact ⟨⟨-((-old) / 10) - 1 - i, by ring⟩, by omega, by omega⟩
    · omega
    · omega

theorem cellPositions_pairwise (d : Direction) (old new : Int) :
    (cellPositions d old new).Pairwise (fun x y => 0 < aheadBy d y x) := by
  cases d <;> refine List.pairwise_map.2 (List.pairwise_lt_range.imp fun {i j} hij => ?_) <;>
    simp only [aheadBy, dirSign] <;> omega

theorem cellPositions_length_le_one {d : Direction} {old new : Int} (h : aheadBy d new old ≤ 5) :
    (cellPositions d old new).length ≤ 1 := by
  cases d <;> simp only [cellPositions, List.length_map, List.length_range, aheadBy, dirSign] at h ⊢ <;> omega

/-! ### The window (R20) -/

/-- The newest n of a list. -/
def newest {α : Type} (n : Nat) (l : List α) : List α := l.drop (l.length - n)

theorem newest_of_length_le {α : Type} {n : Nat} {l : List α} (h : l.length ≤ n) : newest n l = l := by
  rw [newest, Nat.sub_eq_zero_of_le h, List.drop_zero]

theorem newest_append {α : Type} (n : Nat) (l : List α) (a : α) : newest n (newest n l ++ [a]) = newest n (l ++ [a]) := by
  simp only [newest, List.length_append, List.length_drop, List.length_singleton]
  rw [← List.drop_append_of_le_length (Nat.sub_le _ _), List.drop_drop]
  congr 1
  omega

theorem appendCell_eq (w : List Cell) (c : Cell) : appendCell w c = newest 64 (w ++ [c]) := by
  rw [appendCell, newest, List.length_append, List.length_singleton]
  congr 1

/-! ### The cells of an advance, one after the other (R19 to R21, R28) -/

/-- R20, R28: the body detection writes its own registers only. -/
theorem detect_keeps (st : Settings) (d : Direction) (sc : Scanner) (c : Cell) :
    (detect st d sc c).1.window = sc.window ∧ (detect st d sc c).1.patterns = sc.patterns ∧
      (detect st d sc c).1.front = sc.front := by
  unfold detect
  split <;> split_ifs <;> exact ⟨rfl, rfl, rfl⟩

/-- R20, R28: a cell leaves in the scanner what the body detection makes of it. -/
theorem takeCell_scanner (lines : ScanLines) (p : Part) (x : Int) : (takeCell lines p x).scanner =
    (detect p.store.working p.travel.direction
      { p.scanner with window := appendCell p.scanner.window { position := x, lines := lines } }
      { position := x, lines := lines }).1 := by
  unfold takeCell
  simp only
  split
  · rfl
  · exact congrArg Ground.scanner (ground_of_offQueue (recordCandidate_offQueue _ _))

theorem takeCell_keeps (lines : ScanLines) (p : Part) (x : Int) :
    (takeCell lines p x).scanner.window = newest 64 (p.scanner.window ++ [{ position := x, lines := lines }]) ∧
      (takeCell lines p x).scanner.patterns = p.scanner.patterns ∧ (takeCell lines p x).scanner.front = p.scanner.front := by
  rw [← appendCell_eq, takeCell_scanner]
  exact detect_keeps ..

theorem foldl_takeCell_keeps (lines : ScanLines) (xs : List Int) (p : Part) (h : p.scanner.window.length ≤ 64) :
    (xs.foldl (takeCell lines) p).scanner.window =
        newest 64 (p.scanner.window ++ xs.map fun x => ({ position := x, lines := lines } : Cell)) := by
  induction xs using List.reverseRecOn with
  | nil => rw [List.map_nil, List.append_nil, newest_of_length_le h]; rfl
  | append_singleton xs x ih =>
    rw [List.foldl_append, List.foldl_cons, List.foldl_nil, (takeCell_keeps ..).1, ih, newest_append, List.append_assoc,
      List.map_append, List.map_singleton]

theorem foldl_takeCell_scanner (lines : ScanLines) (xs : List Int) (p : Part) :
    (xs.foldl (takeCell lines) p).scanner.patterns = p.scanner.patterns ∧
      (xs.foldl (takeCell lines) p).scanner.front = p.scanner.front := by
  induction xs generalizing p with
  | nil => exact ⟨rfl, rfl⟩
  | cons x xs ih =>
    obtain ⟨_, hpatterns, hfront⟩ := takeCell_keeps lines p x
    rw [List.foldl_cons, (ih _).1, (ih _).2]
    exact ⟨hpatterns, hfront⟩

section
variable {p : Part} {lines : ScanLines}

theorem scannerAdvance_none (h : p.scanner.active = false ∨ p.scanner.front = none ∨
    ∃ f, p.scanner.front = some f ∧ aheadBy p.travel.direction (scannerPoint p) f ≤ 0) : scannerAdvance lines p = p := by
  unfold scannerAdvance
  split
  · next f hactive hfront =>
    refine if_neg fun hahead => ?_
    rcases h with hoff | hno | ⟨f', hf', hbehind⟩
    · rw [hoff] at hactive; cases hactive
    · rw [hno] at hfront; cases hfront
    · rw [hf'] at hfront
      cases hfront
      exact absurd hahead (not_lt.2 hbehind)
  · rfl

theorem scannerAdvance_cells {f : Int} (hactive : p.scanner.active = true) (hfront : p.scanner.front = some f)
    (hahead : 0 < aheadBy p.travel.direction (scannerPoint p) f) :
    scannerAdvance lines p = (cellPositions p.travel.direction f (scannerPoint p)).foldl (takeCell lines)
      { p with scanner := { p.scanner with front := some (scannerPoint p) } } := by
  unfold scannerAdvance
  rw [hactive, hfront]
  exact if_pos hahead

end

/-- Settles O19. -/
theorem onlyNewGroundGivesCells : Obligations.OnlyNewGroundGivesCells := by
  unfold Obligations.OnlyNewGroundGivesCells
  refine ⟨fun d old new => ⟨mem_cellPositions d old new, cellPositions_pairwise d old new, cellPositions_length_le_one⟩,
    fun p lines => ⟨scannerAdvance_none, fun f hactive hfront hahead => ?_⟩⟩
  intro cells window
  have hadvance := scannerAdvance_cells (lines := lines) hactive hfront hahead
  have hoff := scannerAdvance_offScanner p lines
  refine ⟨?_, fun hlen => ?_, ?_, congrArg (fun x => x.1.2.2.2.1) hoff, congrArg (fun x => x.2.1) hoff,
    congrArg (fun x => x.2.2) hoff, ?_⟩
  · rw [hadvance, (foldl_takeCell_scanner ..).2]
  · rw [hadvance]
    exact foldl_takeCell_keeps lines _ _ hlen
  · rw [hadvance, (foldl_takeCell_scanner ..).1]
  · intro take
    have htake : takeCell lines = take := by
      funext q x
      unfold takeCell
      simp only [appendCell_eq]
      rfl
    rw [hadvance, htake]

/-! ### The body detection, cell by cell (R23 to R26) -/

section
variable {st : Settings} {d : Direction} {sc : Scanner} {c : Cell} {b : Body}

theorem detect_seeking (h : sc.phase = .seeking) : detect st d sc c =
    if c.lines.se then
      if sc.guardSet then (sc, none) else ({ sc with phase := .inBody, body := some (startBody c) }, none)
    else ({ sc with guardSet := false }, none) := by
  unfold detect
  rw [h]

theorem detect_inBody (h : sc.phase = .inBody) (hb : sc.body = some b) : detect st d sc c =
    if c.lines.se then ({ sc with body := some (extendBody b c) }, none)
    else if b.absentRun < 2 then ({ sc with body := some (lengthenGap b c) }, none)
    else if (b.length : Int) < st.minBody then ({ sc with phase := .seeking, body := none }, none)
    else ({ sc with phase := .closing, body := some { b with gap := noneSeen, closing := 0 } }, none) := by
  unfold detect
  rw [h, hb]

theorem detect_closing (h : sc.phase = .closing) (hb : sc.body = some b) : detect st d sc c =
    if c.lines.se then ({ sc with phase := .inBody, body := some (startBody c) }, some (classify st d sc b))
    else if b.closing + 1 < 16 then ({ sc with body := some { b with closing := b.closing + 1 } }, none)
    else ({ sc with phase := .seeking, body := none }, some (classify st d sc b)) := by
  unfold detect
  rw [h, hb]

/-- R27: a body is WIDE between the two limits. -/
theorem classOf_wide_iff (st : Settings) (length : Nat) :
    classOf st length = .wide ↔ st.wideLimit ≤ (length : Int) ∧ (length : Int) < st.longLimit := by
  unfold classOf
  split_ifs with hlong hwide <;> simp <;> omega

theorem classOf_standard_iff (st : Settings) (length : Nat) :
    classOf st length = .standard ↔ (length : Int) < st.longLimit ∧ (length : Int) < st.wideLimit := by
  unfold classOf
  split_ifs with hlong hwide <;> simp <;> omega

/-! ### A run of cells (R23 to R26) -/

theorem scanRun_nil : scanRun st d sc [] = (sc, []) := rfl

theorem scanRun_append (xs ys : List Cell) : scanRun st d sc (xs ++ ys) =
    ((scanRun st d (scanRun st d sc xs).1 ys).1, (scanRun st d sc xs).2 ++ (scanRun st d (scanRun st d sc xs).1 ys).2) := by
  induction ys using List.reverseRecOn with
  | nil => rw [List.append_nil, scanRun_nil, List.append_nil]
  | append_singleton ys c ih =>
    simp only [scanRun, ← List.append_assoc, List.foldl_append, List.foldl_cons, List.foldl_nil] at ih ⊢
    rw [ih]

theorem scanRun_after {q : Scanner} {xs : List Cell} (ys : List Cell) (h : scanRun st d sc xs = (q, [])) :
    scanRun st d sc (xs ++ ys) = scanRun st d q ys := by
  rw [scanRun_append, h]
  rfl

/-- A cell without an event gives no candidate. -/
theorem scanRun_quiet {q : Scanner} (cells : List Cell) (h : detect st d sc c = (q, none)) :
    scanRun st d sc (c :: cells) = scanRun st d q cells :=
  scanRun_after (xs := [c]) cells (by rw [scanRun, List.foldl_cons, h]; rfl)

theorem scanRun_event {q : Scanner} {x : Candidate} (h : detect st d sc c = (q, some x)) :
    scanRun st d sc [c] = (q, [x]) := by
  rw [scanRun, List.foldl_cons, h]
  rfl

/-- R24: absent cells leave a scanner that seeks with its guard clear as it is. -/
theorem scanRun_seeking {cells : List Cell} (hphase : sc.phase = .seeking) (hguard : sc.guardSet = false)
    (h : ∀ c ∈ cells, c.lines.se = false) : scanRun st d sc cells = (sc, []) := by
  induction cells with
  | nil => rfl
  | cons c cells ih =>
    have hstep : detect st d sc c = (sc, none) := by
      rw [detect_seeking hphase, h c (List.mem_cons_self ..), if_neg nofun]
      rw [show ({ sc with guardSet := false } : Scanner) = sc by rw [← hguard]]
    rw [scanRun_quiet cells hstep, ih fun x hx => h x (List.mem_cons_of_mem _ hx)]

/-- The scanner with its phase and its pending body replaced. -/
def scanAt (sc : Scanner) (phase : ScanPhase) (b : Option Body) : Scanner := { sc with phase := phase, body := b }

theorem scanAt_self (sc : Scanner) : scanAt sc sc.phase sc.body = sc := rfl

/-- R24: an absent cell in a body that lacks fewer than two lengthens its gap. -/
theorem detect_gap (hse : c.lines.se = false) (hrun : b.absentRun < 2) :
    detect st d (scanAt sc .inBody (some b)) c = (scanAt sc .inBody (some (lengthenGap b c)), none) := by
  rw [detect_inBody (b := b) (sc := scanAt sc .inBody (some b)) rfl rfl, hse, if_neg nofun, if_pos hrun]
  rfl

/-- R24, R25: the third absent cell ends the body. -/
theorem detect_third (hse : c.lines.se = false) (hrun : ¬ b.absentRun < 2) :
    detect st d (scanAt sc .inBody (some b)) c = (if (b.length : Int) < st.minBody then scanAt sc .seeking none
      else scanAt sc .closing (some { b with gap := noneSeen, closing := 0 }), none) := by
  rw [detect_inBody (b := b) (sc := scanAt sc .inBody (some b)) rfl rfl, hse, if_neg nofun, if_neg hrun]
  split <;> rfl

theorem detect_counts (hse : c.lines.se = false) (hclosing : b.closing + 1 < 16) :
    detect st d (scanAt sc .closing (some b)) c = (scanAt sc .closing (some { b with closing := b.closing + 1 }), none) := by
  rw [detect_closing (b := b) (sc := scanAt sc .closing (some b)) rfl rfl, hse, if_neg nofun, if_pos hclosing]
  rfl

/-- R26: the 16th absent cell brings the classification event. -/
theorem detect_sixteenth (hse : c.lines.se = false) (hclosing : b.closing = 15) :
    detect st d (scanAt sc .closing (some b)) c = (scanAt sc .seeking none, some (classify st d sc b)) := by
  rw [detect_closing (b := b) (sc := scanAt sc .closing (some b)) rfl rfl, hse, if_neg nofun, if_neg (by omega)]
  rfl

/-- R26: up to 15 absent cells are counted in CLOSING. -/
theorem scanRun_closing {cells : List Cell} (hlen : b.closing + cells.length ≤ 15) (h : ∀ c ∈ cells, c.lines.se = false) :
    scanRun st d (scanAt sc .closing (some b)) cells =
      (scanAt sc .closing (some { b with closing := b.closing + cells.length }), []) := by
  induction cells generalizing b with
  | nil => rfl
  | cons c cells ih =>
    rw [List.length_cons] at hlen
    have hrest := ih (b := { b with closing := b.closing + 1 }) (by simp only; omega) fun x hx => h x (List.mem_cons_of_mem _ hx)
    rw [scanRun_quiet cells (detect_counts (h c (List.mem_cons_self ..)) (by omega)), hrest]
    simp only [List.length_cons, Nat.add_comm 1, Nat.add_assoc]

/-- R24, R25: three absent cells discard a short body or lead to CLOSING. -/
theorem scanRun_gap {c1 c2 c3 : Cell} (hrun : b.absentRun = 0)
    (h1 : c1.lines.se = false) (h2 : c2.lines.se = false) (h3 : c3.lines.se = false) :
    scanRun st d (scanAt sc .inBody (some b)) [c1, c2, c3] =
      (if (b.length : Int) < st.minBody then scanAt sc .seeking none
       else scanAt sc .closing (some { lengthenGap (lengthenGap b c1) c2 with gap := noneSeen, closing := 0 }), []) := by
  have hrun1 : (lengthenGap b c1).absentRun < 2 := by simp only [lengthenGap]; omega
  have hrun2 : ¬ (lengthenGap (lengthenGap b c1) c2).absentRun < 2 := by simp only [lengthenGap]; omega
  rw [scanRun_quiet _ (detect_gap h1 (by omega)), scanRun_quiet _ (detect_gap h2 hrun1),
    scanRun_quiet _ (detect_third h3 hrun2), scanRun_nil]
  rfl

/-- R24 to R26: of the 19 absent cells after a body, 18 give no candidate yet, and the last one gives it. -/
theorem scanRun_ends {cells : List Cell} {last : Cell} (hrun : b.absentRun = 0) (hguard : sc.guardSet = false)
    (hlen : cells.length = 18) (h : ∀ c ∈ cells, c.lines.se = false) (hlast : last.lines.se = false) :
    (scanRun st d (scanAt sc .inBody (some b)) cells).2 = [] ∧ scanRun st d (scanAt sc .inBody (some b)) (cells ++ [last]) =
      (scanAt sc .seeking none, if (b.length : Int) < st.minBody then [] else [classify st d sc b]) := by
  obtain ⟨c1, c2, c3, rest, rfl⟩ : ∃ c1 c2 c3 rest, cells = [c1, c2, c3] ++ rest := by
    match cells, hlen with
    | c1 :: c2 :: c3 :: rest, _ => exact ⟨c1, c2, c3, rest, rfl⟩
  simp only [List.mem_append, List.mem_cons, List.not_mem_nil, or_false] at h
  have hgap := scanRun_gap (st := st) (d := d) (sc := sc) hrun (h c1 (.inl (.inl rfl))) (h c2 (.inl (.inr (.inl rfl))))
    (h c3 (.inl (.inr (.inr rfl))))
  have hrest : ∀ c ∈ rest, c.lines.se = false := fun c hc => h c (.inr hc)
  by_cases hshort : (b.length : Int) < st.minBody
  · have hall : ∀ c ∈ rest ++ [last], c.lines.se = false := by
      intro c hc
      rcases List.mem_append.1 hc with hc | hc
      · exact hrest c hc
      · rw [List.mem_singleton.1 hc]; exact hlast
    rw [if_pos hshort] at hgap
    rw [if_pos hshort, List.append_assoc, scanRun_after _ hgap, scanRun_after _ hgap]
    have hseeks {cells : List Cell} (h : ∀ c ∈ cells, c.lines.se = false) :
        scanRun st d (scanAt sc .seeking none) cells = (scanAt sc .seeking none, []) := scanRun_seeking rfl hguard h
    rw [hseeks hrest, hseeks hall]
    exact ⟨rfl, rfl⟩
  · have hcount : rest.length = 15 := by simpa using hlen
    rw [if_neg hshort] at hgap
    have hclosing := scanRun_closing (st := st) (d := d) (sc := sc)
      (b := { lengthenGap (lengthenGap b c1) c2 with gap := noneSeen, closing := 0 }) (by simp only; omega) hrest
    have hevent := scanRun_event (detect_sixteenth (st := st) (d := d) (sc := sc) (b :=
      { lengthenGap (lengthenGap b c1) c2 with gap := noneSeen, closing := 0 + rest.length }) hlast (by simp only; omega))
    have hrun18 : scanRun st d (scanAt sc .inBody (some b)) ([c1, c2, c3] ++ rest) = (scanAt sc .closing (some
        { lengthenGap (lengthenGap b c1) c2 with gap := noneSeen, closing := 0 + rest.length }), []) := by
      rw [scanRun_after _ hgap]
      exact hclosing
    rw [if_neg hshort, scanRun_after _ hrun18, hrun18]
    exact ⟨rfl, hevent⟩

end

/-! ### The body of a row of SE-present cells (R23, R24) -/

/-- The pending body after the cells of a row of SE-present lines that starts at `first`. -/
def bodyOf (d : Direction) (first : Int) (ls : List ScanLines) : Body where
  first := first
  last := first + dirSign d * 10 * ((ls.length : Int) - 1)
  length := ls.length
  seen := ⟨ls.any (·.fl), ls.any (·.fr), ls.any (·.cm)⟩
  absentRun := 0
  gap := noneSeen
  closing := 0

/-- The cell of the row's line number i. -/
def rowCell (d : Direction) (first : Int) (i : Nat) (l : ScanLines) : Cell :=
  { position := first + dirSign d * 10 * i, lines := l }

theorem startBody_rowCell (d : Direction) (first : Int) (l : ScanLines) : startBody (rowCell d first 0 l) = bodyOf d first [l] := by
  simp [startBody, rowCell, bodyOf, seenIn]

theorem extendBody_rowCell (d : Direction) (first : Int) {ls : List ScanLines} {l : ScanLines} (hlen : ls.length + 1 ≤ 255) :
    extendBody (bodyOf d first ls) (rowCell d first ls.length l) = bodyOf d first (ls ++ [l]) := by
  have hlength : min 255 ((dirSign d * 10 * (ls.length : Int)).natAbs / 10 + 1) = ls.length + 1 := by
    cases d <;> simp only [dirSign] <;> omega
  simp [extendBody, rowCell, bodyOf, Seen.merge, seenIn, noneSeen, hlength]

section
variable {st : Settings} {d : Direction} {sc : Scanner}

/-- R23, R24: a row of SE-present cells from SEEKING with the guard clear is one body. -/
theorem scanRun_body {first : Int} {ls : List ScanLines} (hphase : sc.phase = .seeking) (hguard : sc.guardSet = false)
    (hne : ls ≠ []) (hlen : ls.length ≤ 255) (h : ∀ l ∈ ls, l.se = true) :
    scanRun st d sc (ls.mapIdx (rowCell d first)) = (scanAt sc .inBody (some (bodyOf d first ls)), []) := by
  induction ls using List.reverseRecOn with
  | nil => exact absurd rfl hne
  | append_singleton ls l ih =>
    have hse : (rowCell d first ls.length l).lines.se = true := h l (by simp)
    rw [List.mapIdx_concat]
    cases ls with
    | nil =>
      have hstart : detect st d sc (rowCell d first 0 l) = (scanAt sc .inBody (some (bodyOf d first [l])), none) := by
        rw [detect_seeking hphase, if_pos (show (rowCell d first 0 l).lines.se = true from hse), hguard, if_neg nofun,
          startBody_rowCell]
        rw [← hguard]
        rfl
      exact (scanRun_quiet [] hstart).trans scanRun_nil
    | cons x xs =>
      rw [List.length_append, List.length_singleton] at hlen
      rw [scanRun_after _ (ih (by simp) (by omega) fun y hy => h y (List.mem_append_left _ hy))]
      have hextend : detect st d (scanAt sc .inBody (some (bodyOf d first (x :: xs)))) (rowCell d first (x :: xs).length l) =
          (scanAt sc .inBody (some (bodyOf d first (x :: xs ++ [l]))), none) := by
        rw [detect_inBody (b := bodyOf d first (x :: xs)) (sc := scanAt sc .inBody (some (bodyOf d first (x :: xs)))) rfl rfl,
          if_pos hse, extendBody_rowCell d first hlen]
        rfl
      exact (scanRun_quiet [] hextend).trans scanRun_nil

/-- R25 to R27: a row of SE-present lines, then 19 SE-absent ones. -/
theorem scanRun_row {first : Int} {body gap : List ScanLines} (hphase : sc.phase = .seeking) (hguard : sc.guardSet = false)
    (hnone : sc.body = none) (hbody : ∀ l ∈ body, l.se = true) (hgap : ∀ l ∈ gap, l.se = false) (hne : 1 ≤ body.length)
    (hlen : body.length ≤ 255) (hnineteen : gap.length = 19) :
    scanRun st d sc ((body ++ gap).mapIdx (rowCell d first)) = (sc, if (body.length : Int) < st.minBody then []
        else [classify st d sc (bodyOf d first body)]) ∧
      (scanRun st d sc ((body ++ gap).mapIdx (rowCell d first)).dropLast).2 = [] := by
  obtain ⟨gap, last, rfl⟩ : ∃ g l, gap = g ++ [l] := List.eq_nil_or_concat' gap |>.resolve_left (by rintro rfl; cases hnineteen)
  have heighteen : gap.length = 18 := by simpa using hnineteen
  have hrow := scanRun_body (st := st) (d := d) (first := first) hphase hguard (List.length_pos_iff.1 hne) hlen hbody
  have hcells : (body ++ (gap ++ [last])).mapIdx (rowCell d first) = body.mapIdx (rowCell d first) ++
      (gap.mapIdx (fun i => rowCell d first (i + body.length)) ++ [rowCell d first (gap.length + body.length) last]) := by
    rw [List.mapIdx_append, List.mapIdx_concat]
  have habsent : ∀ c ∈ gap.mapIdx (fun i => rowCell d first (i + body.length)), c.lines.se = false := by
    intro c hc
    obtain ⟨i, hi, rfl⟩ := List.mem_mapIdx.1 hc
    exact hgap _ (List.mem_append_left _ (List.getElem_mem hi))
  obtain ⟨hquiet, hends⟩ := scanRun_ends (st := st) (d := d) (sc := sc) (b := bodyOf d first body)
    (last := rowCell d first (gap.length + body.length) last) rfl hguard (by rw [List.length_mapIdx, heighteen]) habsent
    (hgap last (by simp))
  have hself : scanAt sc .seeking none = sc := by rw [← hphase, ← hnone, scanAt_self]
  rw [hcells]
  refine ⟨?_, ?_⟩
  · rw [scanRun_after _ hrow, hends, hself]
    rfl
  · rw [← List.append_assoc, List.dropLast_concat, scanRun_after _ hrow, hquiet]

end

/-- Settles O20. -/
theorem aBodyIsClassifiedOnce : Obligations.ABodyIsClassifiedOnce := by
  unfold Obligations.ABodyIsClassifiedOnce
  refine ⟨fun st d sc c => ?_, fun st d sc b => ?_, fun st d sc first body gap => ?_⟩
  · intro clear started
    refine ⟨fun hphase => ⟨fun hse => ?_, fun hse hguard => ?_, fun hse hguard => ?_⟩,
      fun b hphase hb => ⟨fun hse => ?_, fun hse hrun => ?_, fun hse hrun hshort => ?_, fun hse hrun hlong => ?_⟩,
      fun b hphase hb => ⟨fun hse hclosing => ?_, fun hse hclosing => ?_, fun hse => ?_⟩⟩
    · rw [detect_seeking hphase, hse]; rfl
    · rw [detect_seeking hphase, hse, if_pos rfl, if_pos hguard]
    · rw [detect_seeking hphase, hse, if_pos rfl, if_neg (by rw [hguard]; nofun)]; rfl
    · rw [detect_inBody hphase hb, if_pos hse]; rfl
    · rw [detect_inBody hphase hb, if_neg (by rw [hse]; nofun), if_pos (by omega)]; rfl
    · rw [detect_inBody hphase hb, if_neg (by rw [hse]; nofun), if_neg (by omega), if_pos hshort]
    · rw [detect_inBody hphase hb, if_neg (by rw [hse]; nofun), if_neg (by omega), if_neg (not_lt.2 hlong)]; rfl
    · rw [detect_closing hphase hb, if_neg (by rw [hse]; nofun), if_pos (by omega)]
    · rw [detect_closing hphase hb, if_neg (by rw [hse]; nofun), if_neg (by omega)]
    · rw [detect_closing hphase hb, if_pos hse]; rfl
  · intro c
    refine ⟨fun hfirst hlast => ?_, rfl, rfl, ?_, classOf_longBody_iff st b.length, classOf_wide_iff st b.length⟩
    · show 2 * ((b.first + b.last) / 2) = b.first + b.last
      omega
    · show (!b.seen.fl || !b.seen.fr) = true ↔ _
      simp
  · intro hphase hguard hnone hbody hgap hne hlen hnineteen sign cells run
    have hsign : sign = dirSign d := (dirSign_eq d).symm
    have hcells : cells = (body ++ gap).mapIdx (rowCell d first) := by
      show (body ++ gap).mapIdx (fun i l => ({ position := first + sign * 10 * i, lines := l } : Cell)) = _
      rw [hsign]
      rfl
    obtain ⟨hrun, hdrop⟩ := scanRun_row (st := st) (d := d) (first := first) hphase hguard hnone hbody hgap hne hlen hnineteen
    rw [← hcells] at hrun hdrop
    have hrun' : run = (sc, if (body.length : Int) < st.minBody then [] else [classify st d sc (bodyOf d first body)]) := hrun
    rw [hrun']
    refine ⟨rfl, hdrop, fun hshort => if_pos hshort, fun hlong => ⟨classify st d sc (bodyOf d first body), if_neg (not_lt.2 hlong),
      ?_, rfl, rfl, ?_, classOf_longBody_iff st body.length, classOf_standard_iff st body.length⟩⟩
    · show (first + (first + dirSign d * 10 * ((body.length : Int) - 1))) / 2 = first + sign * 5 * (body.length - 1)
      rw [hsign]
      cases d <;> simp only [dirSign] <;> omega
    · show (!body.any (·.fl) || !body.any (·.fr)) = true ↔ _
      simp

end Sys2Proof.Machine
end

section
/-! PROOF. What the motion changes make of a running cycle (R7, R39, R162 to R164). -/

namespace Sys2Proof.Machine
open Sys2Proof Sys2Proof.Safety

/-! ### What an advance leaves of a record already numbered (R41, R44) -/

/-- R37: the number n has been given, and will not be given again. -/
def Issued (n : Nat) (q : Queue) : Prop := n < q.nextNumber ∨ q.exhausted = true

/-- R44: a record n of u is one of q, passed by C at most. -/
def RecordKept (n : Nat) (q u : Queue) : Prop :=
  ∀ r ∈ u.records, r.number = n → ∃ x ∈ q.records, x.number = n ∧ r.tampCount = x.tampCount ∧ r.failure = x.failure ∧
    (x.state ≠ .pending → r.state = x.state ∧ r.reported = x.reported)

/-- R41, R44: what an advance makes of the queue and of a record n already numbered. -/
structure Descends (n : Nat) (q u : Queue) : Prop where
  issued : Issued n u
  aside : u.aside = q.aside
  record : RecordKept n q u

section
variable {q u v : Queue} {n : Nat} {p : Part}

theorem recordKept_same (hrecords : u.records = q.records) : RecordKept n q u :=
  fun r hr hn => ⟨r, hrecords ▸ hr, hn, rfl, rfl, fun _ => ⟨rfl, rfl⟩⟩

theorem Descends.same (hi : Issued n q) (hnext : u.nextNumber = q.nextNumber) (hex : u.exhausted = q.exhausted)
    (haside : u.aside = q.aside) (hrecords : u.records = q.records) : Descends n q u :=
  ⟨by rw [Issued, hnext, hex]; exact hi, haside, recordKept_same hrecords⟩

theorem Descends.trans (h1 : Descends n q u) (h2 : Descends n u v) : Descends n q v := by
  refine ⟨h2.issued, h2.aside.trans h1.aside, fun r hr hn => ?_⟩
  obtain ⟨x, hx, hxn, htamp, hfail, hkept⟩ := h2.record r hr hn
  obtain ⟨y, hy, hyn, htamp', hfail', hkept'⟩ := h1.record x hx hxn
  refine ⟨y, hy, hyn, htamp.trans htamp', hfail.trans hfail', fun hstate => ?_⟩
  obtain ⟨hst, hrep⟩ := hkept' hstate
  obtain ⟨hst', hrep'⟩ := hkept (by rw [hst]; exact hstate)
  exact ⟨hst'.trans hst, hrep'.trans hrep⟩

theorem testStopPoint_descends (hi : Issued n p.queue) : Descends n p.queue (testStopPoint p).queue := by
  rw [testStopPoint_queue]
  exact .same hi rfl rfl rfl rfl

theorem renewInPosition_descends (hi : Issued n p.queue) : Descends n p.queue (renewInPosition p).1.queue :=
  .same hi rfl rfl rfl rfl

theorem renewed_descends (hi : Issued n p.queue) : Descends n p.queue (testStopPoint (renewInPosition p).1).queue :=
  (renewInPosition_descends hi).trans (testStopPoint_descends (renewInPosition_descends hi).issued)

/-- R44: passing changes a PENDING record only, and not its tamp count and cause. -/
theorem passRecord_descends (m : Nat) (hrising : Rising p.queue.records) (hi : Issued n p.queue) :
    Descends n p.queue (passRecord p m).queue := by
  have hpass := passRecord_passes m hrising
  have hframe : (passRecord p m).queue =
      { p.queue with records := (passRecord p m).queue.records, lastStop := (passRecord p m).queue.lastStop } :=
    congrArg Part.queue hpass.frame
  refine ⟨by rw [hframe]; exact hi, by rw [hframe], fun r hr hn => ?_⟩
  rw [hpass.records] at hr
  obtain ⟨x, hx, rfl⟩ := List.mem_map.1 hr
  unfold passedAmong at hn ⊢
  split at hn
  · next hm =>
    rw [if_pos hm]
    rw [passedRecord_number] at hn
    by_cases hpassed : x.state = .pending ∧ hasPassed p x = true
    · rw [passedRecord_of_pass hpassed]
      exact ⟨x, hx, hn, rfl, rfl, fun hno => absurd hpassed.1 hno⟩
    · rw [passedRecord_of_stay hpassed]
      exact ⟨x, hx, hn, rfl, rfl, fun _ => ⟨rfl, rfl⟩⟩
  · next hm =>
    rw [if_neg hm]
    exact ⟨x, hx, hn, rfl, rfl, fun _ => ⟨rfl, rfl⟩⟩

theorem foldl_passRecord_descends {cur : Option Nat} (ns : List Nat) (h : QueueHolds p.queue cur) (hi : Issued n p.queue) :
    Descends n p.queue (ns.foldl passRecord p).queue := by
  induction ns generalizing p with
  | nil => exact .same hi rfl rfl rfl rfl
  | cons m ns ih =>
    have hm := passRecord_descends m h.sound.2.1 hi
    exact hm.trans (ih (passRecord_holds m h) hm.issued)

theorem roomForRecord_sublist {rs room : List SleeperRecord} (h : roomForRecord rs = some room) : room.Sublist rs := by
  unfold roomForRecord at h
  split at h
  · cases h; exact .refl rs
  · split at h
    · cases h; exact dropLowestReported_sublist rs
    · cases h

/-- R37, R41: the newest record takes a number not yet given. -/
theorem withNewest_descends {room : List SleeperRecord} (c : Candidate) (hex : p.queue.exhausted = false)
    (hroom : roomForRecord p.queue.records = some room) (hi : Issued n p.queue) :
    Descends n p.queue (withNewest p room c).queue := by
  have hlt : n < p.queue.nextNumber := hi.resolve_right (by rw [hex]; nofun)
  refine ⟨?_, rfl, fun r hr hn => ?_⟩
  · by_cases hlast : p.queue.nextNumber = lastNumber
    · exact .inr (decide_eq_true hlast)
    · refine .inl ?_
      show n < if p.queue.nextNumber = lastNumber then lastNumber else p.queue.nextNumber + 1
      rw [if_neg hlast]
      omega
  · rcases List.mem_append.1 hr with hr | hr
    · exact ⟨r, (roomForRecord_sublist hroom).subset hr, hn, rfl, rfl, fun _ => ⟨rfl, rfl⟩⟩
    · rw [List.mem_singleton.1 hr] at hn
      exact absurd hn (Nat.ne_of_gt hlt)

theorem recordCandidate_descends {cur : Option Nat} (c : Candidate) (h : QueueHolds p.queue cur) (hi : Issued n p.queue) :
    Descends n p.queue (recordCandidate p c).queue := by
  by_cases hlost : p.queue.exhausted = true ∨ roomForRecord p.queue.records = none
  · rw [recordCandidate_lost hlost, handEvent_queue]
    exact .same hi rfl rfl rfl rfl
  · obtain ⟨hex, hroom⟩ := not_or.1 hlost
    obtain ⟨room, hroom⟩ := Option.ne_none_iff_exists'.1 hroom
    have hex := Bool.not_eq_true _ ▸ hex
    have hnewest := withNewest_descends c hex hroom hi
    have hhalt : Descends n (withNewest p room c).queue
        (haltStep (withNewest p room c) (newRecord p.queue.nextNumber c)).queue := by
      rw [haltStep_queue]
      exact .same hnewest.issued rfl rfl rfl rfl
    have hrising : Rising (haltStep (withNewest p room c) (newRecord p.queue.nextNumber c)).queue.records := by
      have hholds : QueueHolds (withNewest p room c).queue cur := by
        simpa only [withNewest, decide_eq_true_eq] using h.record hex hroom
      rw [haltStep_queue]
      exact hholds.sound.2.1
    have hpass := passRecord_descends p.queue.nextNumber hrising hhalt.issued
    rw [recordCandidate_made hex hroom]
    exact ((hnewest.trans hhalt).trans hpass).trans (renewed_descends hpass.issued)

theorem takeCell_descends (lines : ScanLines) (x : Int) (h : QueueAndCycle p) (hi : Issued n p.queue) :
    Descends n p.queue (takeCell lines p x).queue := by
  have hcandidate (sc : Scanner) (c : Candidate) : Descends n p.queue (recordCandidate { p with scanner := sc } c).queue :=
    recordCandidate_descends (p := { p with scanner := sc }) c h.queue hi
  unfold takeCell
  simp only
  split
  · exact .same hi rfl rfl rfl rfl
  · exact hcandidate _ _

theorem scannerAdvance_descends (lines : ScanLines) (h : QueueAndCycle p) (hi : Issued n p.queue) :
    Descends n p.queue (scannerAdvance lines p).queue := by
  have hcells (xs : List Int) : ∀ r : Part, QueueAndCycle r → Issued n r.queue →
      Descends n r.queue (xs.foldl (takeCell lines) r).queue := by
    induction xs with
    | nil => exact fun r _ hr => .same hr rfl rfl rfl rfl
    | cons x xs ih =>
      intro r hr hri
      have hx := takeCell_descends lines x hr hri
      exact hx.trans (ih _ (takeCell_queueAndCycle lines x hr) hx.issued)
  have hscanned (sc : Scanner) (xs : List Int) : Descends n p.queue (xs.foldl (takeCell lines) { p with scanner := sc }).queue :=
    hcells xs { p with scanner := sc } (h.congr rfl rfl rfl rfl rfl rfl) hi
  unfold scannerAdvance
  split
  · simp only
    split
    · exact hscanned _ _
    · exact .same hi rfl rfl rfl rfl
  · exact .same hi rfl rfl rfl rfl

end

/-! ### What a pulse makes of a part in MOVING (R2, R4) -/

/-- The drive and the controller, which no travel step changes. -/
def Part.works (p : Part) : Drive × Cycle := (p.drive, p.cycle)

section
variable {p q : Part} {n : Nat}

theorem works_of_offQueue (h : q.offQueue = p.offQueue) : q.works = p.works := congrArg Prod.snd h

theorem works_of_offScanner (h : q.offScanner = p.offScanner) : q.works = p.works := congrArg Prod.snd h

theorem works_of_offPlan (h : q.offPlan = p.offPlan) : q.works = p.works := congrArg (fun x => (x.2.1, x.2.2.1)) h

theorem works_of_offPort (h : q.offPort = p.offPort) : q.works = p.works := congrArg (fun x => (x.2.1, x.2.2.1)) h

theorem queue_of_offPlan (h : q.offPlan = p.offPlan) : q.queue = p.queue := congrArg (fun x => x.2.2.2) h

variable (lines : ScanLines) (dir : Move)

theorem blocksTakeStep_works (hm : p.queue.motion = .moving) : (blocksTakeStep lines dir p).works = p.works := by
  cases dir with
  | backward => rw [blocksTakeStep_backward lines hm]; rfl
  | forward =>
    rw [blocksTakeStep_forward lines hm, works_of_offPlan (contextAdvance_offPlan _ .v),
      works_of_offPlan (contextAdvance_offPlan _ .h), works_of_offQueue (renewInPosition_offQueue _),
      works_of_offQueue (passRecords_offQueue _), works_of_offScanner (scannerAdvance_offScanner _ lines)]

/-- R4, R131: a pulse in MOVING leaves the drive and the controller as they are. -/
theorem movePulse_works (hm : p.queue.motion = .moving) : (movePulse lines dir p).works = p.works := by
  unfold movePulse
  split
  · rfl
  · simp only
    split
    · exact blocksTakeStep_works lines dir (p := stepPulses p _) hm
    · rcases refusePulse_cases p (decide (maxChainage < chainageOf p.travel p.store.working.pitch (pulsesAfter p dir)))
        with hp | ⟨high, low, e, hp⟩ <;> rw [hp]
      exact (works_of_offPort (handEvent_offPort _ e)).trans rfl

/-- R21: without an advance a pulse leaves the records as they are. -/
theorem movePulse_sameRecords (hm : p.queue.motion = .moving) (h : p.travel.originState = .none ∨ dir = .backward) :
    (movePulse lines dir p).queue.records = p.queue.records ∧ (movePulse lines dir p).queue.aside = p.queue.aside := by
  unfold movePulse
  split
  · exact ⟨rfl, rfl⟩
  · next horigin =>
    obtain rfl : dir = .backward := h.resolve_left (by rw [horigin]; nofun)
    simp only
    split
    · rw [blocksTakeStep_backward (p := stepPulses p _) lines hm]
      exact ⟨rfl, rfl⟩
    · rcases refusePulse_cases p (decide (maxChainage < chainageOf p.travel p.store.working.pitch (pulsesAfter p .backward)))
        with hp | ⟨high, low, e, hp⟩ <;> rw [hp]
      · exact ⟨rfl, rfl⟩
      · rw [handEvent_queue]
        exact ⟨rfl, rfl⟩

theorem blocksTakeStep_descends (hm : p.queue.motion = .moving) (h : QueueAndCycle p) (hi : Issued n p.queue) :
    Descends n p.queue (blocksTakeStep lines dir p).queue := by
  cases dir with
  | backward =>
    rw [blocksTakeStep_backward lines hm]
    exact .same hi rfl rfl rfl rfl
  | forward =>
    rw [blocksTakeStep_forward lines hm, queue_of_offPlan (contextAdvance_offPlan _ .v),
      queue_of_offPlan (contextAdvance_offPlan _ .h)]
    have hscanned := scannerAdvance_descends lines h hi
    have hpassed : Descends n p.queue (passRecords (scannerAdvance lines p)).queue := hscanned.trans
      (foldl_passRecord_descends _ (scannerAdvance_queueAndCycle lines h).queue hscanned.issued)
    exact hpassed.trans (renewInPosition_descends hpassed.issued)

theorem movePulse_descends (hm : p.queue.motion = .moving) (h : QueueAndCycle p) (hi : Issued n p.queue) :
    Descends n p.queue (movePulse lines dir p).queue := by
  unfold movePulse
  split
  · exact .same hi rfl rfl rfl rfl
  · simp only
    split
    · exact blocksTakeStep_descends lines dir (p := stepPulses p _) hm (h.congr rfl rfl rfl rfl rfl rfl) hi
    · rcases refusePulse_cases p (decide (maxChainage < chainageOf p.travel p.store.working.pitch (pulsesAfter p dir)))
        with hp | ⟨high, low, e, hp⟩ <;> rw [hp]
      · exact .same hi rfl rfl rfl rfl
      · rw [handEvent_queue]
        exact .same hi rfl rfl rfl rfl

/-- R21, R41, R44: what a pulse leaves of record n; without an advance the queue need not be legal. -/
theorem movePulse_record (hm : p.queue.motion = .moving)
    (h : (p.travel.originState = .none ∨ dir = .backward) ∨ QueueAndCycle p ∧ Issued n p.queue) :
    (movePulse lines dir p).queue.aside = p.queue.aside ∧ RecordKept n p.queue (movePulse lines dir p).queue := by
  rcases h with h | ⟨hlegal, hi⟩
  · obtain ⟨hrecords, haside⟩ := movePulse_sameRecords lines dir hm h
    exact ⟨haside, recordKept_same hrecords⟩
  · have hkept := movePulse_descends lines dir hm hlegal hi
    exact ⟨hkept.aside, hkept.record⟩

end

/-! ### What entering MOVING makes of a running cycle (R39, R162 to R164) -/

section
variable {p : Part} {n : Nat}

theorem releaseDrive_drive_congr {p q : Part} (hdrive : q.drive = p.drive) (hstore : q.store = p.store) :
    (releaseDrive q).drive = (releaseDrive p).drive := by
  unfold releaseDrive
  rw [hdrive, hstore]
  split
  · rfl
  · exact hdrive

/-- R141: RELEASE opens the clamp when it begins a release. -/
theorem releaseDrive_clamp (p : Part) : (releaseDrive p).drive.clampEngaged =
    (p.drive.clampEngaged && !(p.drive.anyStarted && p.drive.releaseTimer.isNone)) := by
  unfold releaseDrive
  split
  · next h => rw [h, Bool.not_true, Bool.and_false]; rfl
  · next h => rw [Bool.eq_false_iff.2 h, Bool.not_false, Bool.and_true]

/-- R162, R164: the cycle as a travel fault drives it, before the record has failed. -/
def raisingCycle (p : Part) (vertical : PerUnit Vertical) : Cycle :=
  { p.cycle with
    squeeze := ⟨false, false, false, false⟩, phaseTimer := some .raise, lockoutRaise := true, vertical := vertical }

/-- R164: the cycle locked out by a travel fault. -/
def faultedCycle (p : Part) (vertical : PerUnit Vertical) : Cycle :=
  { raisingCycle p vertical with
    phase := .lockout, causes := p.cycle.causes.add .travelFault, current := none, values := none, stopRequested := .none }

theorem startLockoutRaise_low (h : allClear p = false) : startLockoutRaise p =
    { p with cycle := { p.cycle with lockoutRaise := true, phaseTimer := some .raise, vertical := raiseDemands p } } :=
  afterLockoutDepth_low (p := p.withCycle _) h

/-- R164, R166, R170: a travel fault of the cycle on record n. -/
theorem travelFault_eq (hcur : p.cycle.current = some n) (hlow : allClear p = false) : travelFault p =
    handEvent { testStopPoint (withFailed (releaseDrive { p with cycle := raisingCycle p (raiseDemands p) }) n .travelFault) with
      cycle := faultedCycle p (raiseDemands p) }
      (.lockout (p.cycle.causes.add .travelFault) .travelFault (some n)) := by
  have hraise : startLockoutRaise (p.withCycle { p.cycle with squeeze := noSqueeze, phaseTimer := none }) =
      { p with cycle := raisingCycle p (raiseDemands p) } := startLockoutRaise_low (p := p.withCycle _) hlow
  have hreleased : (releaseDrive { p with cycle := raisingCycle p (raiseDemands p) }).cycle = raisingCycle p (raiseDemands p) :=
    releaseDrive_phase _
  have hcycle : (testStopPoint (withFailed (releaseDrive { p with cycle := raisingCycle p (raiseDemands p) }) n .travelFault)).cycle =
      raisingCycle p (raiseDemands p) := (testStopPoint_cycle _).trans hreleased
  unfold travelFault
  simp only [hraise]
  rw [failCurrent_some (n := n) .travelFault ((congrArg Cycle.current hreleased).trans hcur), enterLockout_dropped, hcycle, hcur]
  rfl

theorem cycleMoving_faults (hphase : p.cycle.phase ∈ [CyclePhase.penetrating, .squeezing, .raising, .releasing])
    (hlow : allClear p = false) : cycleMoving p = travelFault p := by
  simp only [List.mem_cons, List.not_mem_nil, or_false] at hphase
  unfold cycleMoving
  rcases hphase with h | h | h | h <;> rw [h] <;> exact if_neg (by rw [hlow]; nofun)

/-- R163: with every unit clear an insertion is broken off by a raise that ends at once. -/
theorem cycleMoving_breaksOff (hphase : p.cycle.phase ∈ [CyclePhase.penetrating, .squeezing]) (hclear : allClear p = true) :
    cycleMoving p = enterReleasing (withRaiseEnded { p with cycle := { p.cycle with
      stopRequested := .travelFault, phase := .raising, squeeze := noSqueeze, phaseTimer := some .raise
      vertical := raiseDemands p } }) := by
  have hraise : cycleMoving p = enterRaising (p.withCycle { p.cycle with stopRequested := .travelFault }) := by
    simp only [List.mem_cons, List.not_mem_nil, or_false] at hphase
    unfold cycleMoving
    rcases hphase with h | h <;> rw [h] <;> exact if_pos hclear
  exact hraise.trans ((enterRaising_clear (p := p.withCycle { p.cycle with stopRequested := .travelFault }) hclear).trans
    (endRaise_releases (.inl nofun)))

theorem cycleMoving_raisesOn (hphase : p.cycle.phase = .raising) (hclear : allClear p = true) :
    cycleMoving p = p.withCycle { p.cycle with stopRequested := .travelFault } := by
  unfold cycleMoving
  rw [hphase]
  exact if_pos hclear

theorem cycleMoving_abandons (hphase : p.cycle.phase = .positioning) : cycleMoving p = abandonCycle p := by
  unfold cycleMoving
  rw [hphase]

/-! ### The stopped cycle after the travel step (R7, R163, R164) -/

/-- R39: the number of the current sleeper has been given. -/
theorem issued_current (h : QueueAndCycle p) (hcur : p.cycle.current = some n) : Issued n p.queue := by
  obtain ⟨r, hr, rfl⟩ := h.queue.sits.2 n hcur
  obtain ⟨-, hlt | ⟨hex, -⟩, -⟩ := h.queue.sound.2.2.1 r hr
  · exact .inl hlt
  · exact .inr hex

theorem abandonCycle_queue {k : Aside} (hcur : p.cycle.current = some n) (hk : p.queue.aside = some k) :
    (abandonCycle p).queue = { (withPutBack p n k).queue with
      lastStop := (abandonCycle p).queue.lastStop, inPosition := (abandonCycle p).queue.inPosition } := by
  rw [abandonCycle_eq hcur hk]
  simp only [testStopPoint_queue]

theorem abandonCycle_works {k : Aside} (hcur : p.cycle.current = some n) (hk : p.queue.aside = some k) :
    (abandonCycle p).works = ((releaseDrive p).drive, { p.cycle with
      phase := .idle, current := none, values := none, stopRequested := .none, phaseTimer := none, fold := noArms }) := by
  rw [abandonCycle_eq hcur hk]
  exact congrArg (fun d => (d, _)) (congrArg (fun x => x.2.1) (testStopPoint_offQueue _))

theorem travelFault_queue (hcur : p.cycle.current = some n) (hlow : allClear p = false) :
    (travelFault p).queue = { (withFailed p n .travelFault).queue with lastStop := (travelFault p).queue.lastStop } := by
  rw [travelFault_eq hcur hlow, handEvent_queue]
  simp only [testStopPoint_queue, withFailed, releaseDrive_queue]

theorem travelFault_works (hcur : p.cycle.current = some n) (hlow : allClear p = false) :
    (travelFault p).works = ((releaseDrive p).drive, faultedCycle p (raiseDemands p)) := by
  rw [travelFault_eq hcur hlow, works_of_offPort (handEvent_offPort _ _)]
  have hreleased : (releaseDrive { p with cycle := raisingCycle p (raiseDemands p) }).drive = (releaseDrive p).drive :=
    releaseDrive_drive_congr rfl rfl
  rw [← hreleased]
  exact congrArg (fun d => (d, _)) (congrArg (fun x => x.2.1) (testStopPoint_offQueue _))

/-- R141, R163: a cycle broken off is in RELEASING. -/
theorem brokenOff_works (hphase : p.cycle.phase ∈ [CyclePhase.penetrating, .squeezing]) (hclear : allClear p = true) :
    (cycleMoving p).works = ((releaseDrive p).drive, { p.cycle with
      stopRequested := .travelFault, phase := .releasing, phaseTimer := none, squeeze := ⟨false, false, false, false⟩
      vertical := ⟨.rest, .rest, .rest, .rest⟩, fold := ⟨false, false, false, false, false, false, false, false⟩ }) := by
  rw [cycleMoving_breaksOff hphase hclear, enterReleasing]
  exact Prod.ext (releaseDrive_drive_congr rfl rfl) (releaseDrive_phase _)

end

section
variable {p : Part} {n : Nat} {lines : ScanLines} {dir : Move}

/-- R39, R162: a pulse that abandons a cycle in POSITIONING. -/
theorem pulse_abandons {k : Aside} (hmoving : p.queue.motion = .moving) (hphase : p.cycle.phase = .positioning)
    (hcur : p.cycle.current = some n) (hk : p.queue.aside = some k)
    (hwhen : (p.travel.originState = .none ∨ dir = .backward) ∨ QueueAndCycle p) :
    (movePulse lines dir (cycleMoving p)).works = ((releaseDrive p).drive, { p.cycle with
      phase := .idle, current := none, values := none, stopRequested := .none, phaseTimer := none, fold := noArms }) ∧
    (movePulse lines dir (cycleMoving p)).queue.aside = none ∧
    (∀ r ∈ (movePulse lines dir (cycleMoving p)).queue.records, r.number = n → r.tampCount = k.tampCount ∧ r.failure = k.failure ∧
      (p.travel.originState = .none ∨ dir = .backward → r.state = k.state ∧ r.reported = k.reported)) := by
  have habandon := cycleMoving_abandons hphase
  have hqueue := abandonCycle_queue hcur hk
  have horigin : (cycleMoving p).travel.originState = p.travel.originState :=
    congrArg Travel.originState (travel_of_ground (cycleMoving_ground p))
  have hm : (cycleMoving p).queue.motion = .moving := (cycleMoving_steady p).queueMotion.trans hmoving
  have hput : ∀ x ∈ (cycleMoving p).queue.records, x.number = n →
      x.state = k.state ∧ x.tampCount = k.tampCount ∧ x.reported = k.reported ∧ x.failure = k.failure := by
    intro x hx hn
    rw [habandon, hqueue] at hx
    obtain ⟨y, rfl⟩ := exists_of_mem_changed ((trimHistory_keeps _).1.subset hx) hn
    exact ⟨rfl, rfl, rfl, rfl⟩
  have hissued : QueueAndCycle p → Issued n (cycleMoving p).queue := fun h => by
    rw [habandon, hqueue]
    exact (issued_current h hcur : Issued n p.queue)
  obtain ⟨haside, hrecord⟩ := movePulse_record (n := n) lines dir hm (by
    rw [horigin]
    exact hwhen.imp_right fun h => ⟨cycleMoving_queueAndCycle h, hissued h⟩)
  refine ⟨(movePulse_works lines dir hm).trans (habandon ▸ abandonCycle_works hcur hk), haside.trans ?_, fun r hr hn => ?_⟩
  · rw [habandon, hqueue]
    rfl
  · obtain ⟨x, hx, hxn, htamp, hfail, -⟩ := hrecord r hr hn
    obtain ⟨-, htamp', -, hfail'⟩ := hput x hx hxn
    refine ⟨htamp.trans htamp', hfail.trans hfail', fun hstays => ?_⟩
    rw [← horigin] at hstays
    rw [(movePulse_sameRecords lines dir hm hstays).1] at hr
    obtain ⟨hstate, -, hreported, -⟩ := hput r hr hn
    exact ⟨hstate, hreported⟩

/-- R164, R166: a pulse that is a travel fault. -/
theorem pulse_faults (hmoving : p.queue.motion = .moving)
    (hphase : p.cycle.phase ∈ [CyclePhase.penetrating, .squeezing, .raising, .releasing]) (hcur : p.cycle.current = some n)
    (hlow : allClear p = false) (hwhen : (p.travel.originState = .none ∨ dir = .backward) ∨ QueueAndCycle p) :
    (movePulse lines dir (cycleMoving p)).works = ((releaseDrive p).drive, faultedCycle p (raiseDemands p)) ∧
    (movePulse lines dir (cycleMoving p)).queue.aside = none ∧
    (∀ r ∈ (movePulse lines dir (cycleMoving p)).queue.records, r.number = n →
      r.state = .failed ∧ r.failure = some .travelFault ∧ r.reported = false) := by
  have hfault := cycleMoving_faults hphase hlow
  have hqueue := travelFault_queue hcur hlow
  have horigin : (cycleMoving p).travel.originState = p.travel.originState :=
    congrArg Travel.originState (travel_of_ground (cycleMoving_ground p))
  have hm : (cycleMoving p).queue.motion = .moving := (cycleMoving_steady p).queueMotion.trans hmoving
  have hissued : QueueAndCycle p → Issued n (cycleMoving p).queue := fun h => by
    rw [hfault, hqueue]
    exact (issued_current h hcur : Issued n p.queue)
  obtain ⟨haside, hrecord⟩ := movePulse_record (n := n) lines dir hm (by
    rw [horigin]
    exact hwhen.imp_right fun h => ⟨cycleMoving_queueAndCycle h, hissued h⟩)
  refine ⟨(movePulse_works lines dir hm).trans (hfault ▸ travelFault_works hcur hlow), haside.trans ?_, fun r hr hn => ?_⟩
  · rw [hfault, hqueue]
    rfl
  · obtain ⟨x, hx, hxn, -, hfail, hkept⟩ := hrecord r hr hn
    rw [hfault, hqueue] at hx
    obtain ⟨y, rfl⟩ := exists_of_mem_changed hx hxn
    obtain ⟨hstate, hreported⟩ := hkept nofun
    exact ⟨hstate, hfail, hreported⟩

end

/-! ### The pulse in LOCKOUT, and the standstill timer (R7, R164, R166) -/

section
variable {p : Part}

theorem addCause_withCycle (c : Cause) (n : Option Nat) : addCause p c n = if p.cycle.causes.has c then
      { p with cycle := { p.cycle with causes := p.cycle.causes.add c } }
    else handEvent { p with cycle := { p.cycle with causes := p.cycle.causes.add c } } (.lockout (p.cycle.causes.add c) c n) := by
  cases hheld : p.cycle.causes.has c with
  | false => rw [addCause_new hheld, if_neg nofun]
  | true =>
    have hsame : p.cycle.causes.add c = p.cycle.causes := by
      cases c <;> rw [CauseSet.add, ← hheld, CauseSet.has]
    rw [addCause_held hheld, if_pos rfl, hsame]

/-- R166, R170: adding a cause touches the cause set and the port alone. -/
theorem addCause_frame (c : Cause) (n : Option Nat) : addCause p c n =
    { p with cycle := { p.cycle with causes := p.cycle.causes.add c }, port := (addCause p c n).port } := by
  rw [addCause_withCycle]
  split
  · rfl
  · exact part_eq_of_offPort (handEvent_offPort _ _)

theorem cycleMoving_lockout (hphase : p.cycle.phase = .lockout) (hlow : allClear p = false) : cycleMoving p =
    if (addCause p .travelFault none).cycle.lockoutRaise = false ∧ (addCause p .travelFault none).lines.estop = false then
      startLockoutRaise (addCause p .travelFault none)
    else addCause p .travelFault none := by
  unfold cycleMoving
  rw [hphase]
  exact if_neg (by rw [hlow]; nofun)

/-- R164, R166: entering MOVING in LOCKOUT with a unit low adds TRAVEL_FAULT, and starts the lockout raise. -/
theorem cycleMoving_lockout_starts (hphase : p.cycle.phase = .lockout) (hlow : allClear p = false)
    (h : p.cycle.lockoutRaise = false ∧ p.lines.estop = false) : cycleMoving p =
      { addCause p .travelFault none with cycle := { p.cycle with
          causes := p.cycle.causes.add .travelFault, lockoutRaise := true, phaseTimer := some .raise
          vertical := raiseDemands p } } := by
  have htold := addCause_frame (p := p) .travelFault none
  have hcycle : (addCause p .travelFault none).cycle = { p.cycle with causes := p.cycle.causes.add .travelFault } :=
    congrArg Part.cycle htold
  have hlines : (addCause p .travelFault none).lines = p.lines := (congrArg Part.lines htold :)
  have hraise : raiseDemands (addCause p .travelFault none) = raiseDemands p := (congrArg raiseDemands htold :)
  have hstill : allClear (addCause p .travelFault none) = false := (congrArg allClear htold).trans hlow
  rw [cycleMoving_lockout hphase hlow, if_pos (by rw [hcycle, hlines]; exact h), startLockoutRaise_low hstill, hraise, hcycle]

theorem cycleMoving_lockout_stays (hphase : p.cycle.phase = .lockout) (hlow : allClear p = false)
    (h : ¬ (p.cycle.lockoutRaise = false ∧ p.lines.estop = false)) : cycleMoving p = addCause p .travelFault none := by
  have htold := addCause_frame (p := p) .travelFault none
  have hcycle : (addCause p .travelFault none).cycle = { p.cycle with causes := p.cycle.causes.add .travelFault } :=
    congrArg Part.cycle htold
  have hlines : (addCause p .travelFault none).lines = p.lines := (congrArg Part.lines htold :)
  rw [cycleMoving_lockout hphase hlow, if_neg (by rw [hcycle, hlines]; exact h)]

end

section
variable {s : State}

theorem exec_standstillTimerExpiry_none (hp : s.part.powered = true) (h : s.part.travel.standstillTimer = none) :
    exec .standstillTimerExpiry s = .next s := by
  have hexec : exec .standstillTimerExpiry s = .next (s.withPart s.part) := by
    show execStandstillTimerExpiry s = _
    rw [execStandstillTimerExpiry, eventOf_powered hp]
    simp only [h]
  exact hexec

/-- R7, R152: the expiry of a running standstill timer in MOVING is a start event. -/
theorem exec_standstillTimerExpiry_moving (hp : s.part.powered = true) (h : s.part.travel.standstillTimer ≠ none)
    (hmoving : s.part.travel.motion = .moving) :
    exec .standstillTimerExpiry s = .next (s.withPart
      (enterStandstill (s.part.withTravel { s.part.travel with standstillTimer := none }))) := by
  obtain ⟨ms, hms⟩ := Option.ne_none_iff_exists'.1 h
  show execStandstillTimerExpiry s = _
  rw [execStandstillTimerExpiry, eventOf_powered hp]
  simp only [hms, hmoving]

end

/-- Settles O16. -/
theorem motionChangesReachTheCycle : Obligations.MotionChangesReachTheCycle := by
  unfold Obligations.MotionChangesReachTheCycle
  have hexec {s : State} {l1 l2 : Bool} {lines : ScanLines} {dir : Move} {q : Part} (hp : s.part.powered = true)
      (hstand : s.part.travel.motion = .standstill) (hpulse : pulseOf s.part.lines.odo1 s.part.lines.odo2 l1 l2 = some dir)
      (hq : cycleMoving (enteredMoving s.part l1 l2 dir) = q) :
      exec (.odometerPulse l1 l2 lines) s = .next (s.withPart (movePulse lines dir q)) := by
    rw [exec_pulse lines hp hpulse, takePulse_standstill lines hstand, hq]
  refine ⟨fun s l1 l2 lines dir n hp hstand hwhen hc hpulse hcur => ?_, fun s l1 l2 lines dir n hp hstand hpulse hcur => ?_,
    fun s l1 l2 lines dir u vertical hp hstand hphase hpulse hu hvertical => ?_, fun s hp => ?_⟩
  · let p := enteredMoving s.part l1 l2 dir
    have hwhen' : (p.travel.originState = .none ∨ dir = .backward) ∨ QueueAndCycle p := by
      rw [or_assoc]
      refine hwhen.imp_right (.imp_right fun hq => ?_)
      have hlegal := (queueAndCycle_iff s.part).2 ⟨hq, hc⟩
      exact ⟨hlegal.queue.congr rfl rfl rfl rfl, hlegal.controller.congr rfl rfl rfl rfl rfl⟩
    have hm : (cycleMoving p).queue.motion = .moving := (cycleMoving_steady p).queueMotion
    have hdrive : (releaseDrive p).drive = (releaseDrive s.part).drive := releaseDrive_drive_congr rfl rfl
    have hworks := movePulse_works lines dir hm
    have hmotion : (movePulse lines dir (cycleMoving p)).cycle.motion = .moving :=
      (congrArg (fun x => x.2.motion) hworks).trans (cycleMoving_steady p).cycleMotion
    refine ⟨_, hexec hp hstand hpulse rfl, hmotion, fun hphase => ?_, fun hphase ⟨u, hu⟩ => ?_, fun hphase hclear => ?_,
      fun hphase hclear => ?_⟩
    · obtain ⟨k, hk⟩ : ∃ k, s.part.queue.aside = some k :=
        Option.isSome_iff_exists.1 (hc.2.2.2.2.2.2.1.trans (by rw [hphase]; rfl))
      obtain ⟨hleft, haside, hrecord⟩ := pulse_abandons (lines := lines) (p := p) rfl hphase hcur hk hwhen'
      have hcycle := congrArg Prod.snd hleft
      have hdriven : (movePulse lines dir (cycleMoving p)).drive = (releaseDrive s.part).drive :=
        (congrArg Prod.fst hleft).trans hdrive
      refine ⟨congrArg Cycle.phase hcycle, congrArg Cycle.current hcycle, congrArg Cycle.values hcycle, haside,
        fun x => ?_, (congrArg Cycle.causes hcycle :), hdriven, fun k' hk' r hr hn => ?_, ?_⟩
      · exact (congrArg (fun c : Cycle => c.fold.get x) hcycle).trans (PerArm.get_noArms x)
      · cases hk.symm.trans hk'
        exact hrecord r hr hn
      · exact (congrArg Drive.clampEngaged hdriven).trans (releaseDrive_clamp s.part)
    · have hlow : allClear p = false := (not_allClear_iff p).2 ⟨u, hu⟩
      obtain ⟨hleft, haside, hrecord⟩ := pulse_faults (lines := lines) (p := p) rfl hphase hcur hlow hwhen'
      have hcycle := congrArg Prod.snd hleft
      refine ⟨congrArg Cycle.phase hcycle, (congrArg Cycle.causes hcycle :), congrArg Cycle.current hcycle, haside,
        (congrArg Prod.fst hleft).trans hdrive, fun w => ?_, congrArg Cycle.lockoutRaise hcycle, fun w => ?_, hrecord⟩
      · exact (congrArg (fun c : Cycle => c.squeeze.get w) hcycle).trans (by cases w <;> rfl)
      · exact (congrArg (fun c : Cycle => c.vertical.get w) hcycle).trans (raiseDemands_get p w)
    · have hleft := hworks.trans (brokenOff_works (p := p) hphase ((allClear_iff p).2 hclear))
      exact ⟨congrArg Prod.snd hleft, (congrArg Prod.fst hleft).trans hdrive⟩
    · have hleft := hworks.trans (congrArg Part.works (cycleMoving_raisesOn (p := p) hphase ((allClear_iff p).2 hclear)))
      exact ⟨congrArg Prod.snd hleft, congrArg Prod.fst hleft⟩
  · intro p
    refine ⟨fun k hphase hk => ?_, fun u vertical hphase hu hvertical => ?_⟩
    · intro stopped restored
      have hrestored : restored =
          (testStopPoint { releaseDrive p with queue := (withPutBack p n k).queue }).withCycle stopped := by
        show testStopPoint { releaseDrive (p.withCycle stopped) with queue := (withPutBack p n k).queue } = _
        rw [releaseDrive_withCycle]
        exact testStopPoint_withCycle { releaseDrive p with queue := (withPutBack p n k).queue } stopped
      refine hexec hp hstand hpulse ?_
      rw [cycleMoving_abandons hphase, abandonCycle_eq (p := p) hcur hk, hrestored]
      rfl
    · obtain rfl : vertical = raiseDemands p := PerUnit.eq_of_get fun w => (hvertical w).trans (raiseDemands_get p w).symm
      intro raising failed causes
      have hfailed : testStopPoint (withFailed (releaseDrive { p with cycle := raising }) n .travelFault) = failed := by
        unfold withFailed
        rw [releaseDrive_queue]
      refine hexec hp hstand hpulse ?_
      rw [cycleMoving_faults hphase ((not_allClear_iff p).2 ⟨u, hu⟩),
        travelFault_eq (p := p) hcur ((not_allClear_iff p).2 ⟨u, hu⟩), ← hfailed]
      rfl
  · intro p starts causes c c'
    let q := enteredMoving p l1 l2 dir
    obtain rfl : vertical = raiseDemands q := PerUnit.eq_of_get fun w => (hvertical w).trans (raiseDemands_get q w).symm
    have hlow : allClear q = false := (not_allClear_iff q).2 ⟨u, hu⟩
    have hm : (cycleMoving q).queue.motion = .moving := (cycleMoving_steady q).queueMotion
    have hworks := movePulse_works lines dir hm
    have hstays : p.travel.originState = .none → movePulse lines dir (cycleMoving q) = cycleMoving q := fun horigin =>
      movePulse_none lines dir ((congrArg Travel.originState (travel_of_ground (cycleMoving_ground q))).trans horigin)
    have htold := addCause_withCycle (p := q) .travelFault none
    have hdriven : (addCause q .travelFault none).drive = p.drive :=
      (congrArg Part.drive (addCause_frame (p := q) .travelFault none) :)
    refine ⟨s.withPart (movePulse lines dir (cycleMoving q)), hexec hp hstand hpulse rfl, ?_⟩
    by_cases hstarts : starts
    · have hmoving := cycleMoving_lockout_starts (p := q) hphase hlow hstarts
      have hleft := hworks.trans (congrArg Part.works hmoving)
      have hcycle : (movePulse lines dir (cycleMoving q)).cycle = c' := congrArg Prod.snd hleft
      refine ⟨fun _ => hcycle, fun hno => absurd hstarts hno, (congrArg Prod.fst hleft).trans hdriven, fun horigin => ?_⟩
      intro moved told
      have htold' : addCause q .travelFault none = told := htold
      rw [hstays horigin, hmoving, htold']
      rfl
    · have hmoving := cycleMoving_lockout_stays (p := q) hphase hlow hstarts
      have hleft := hworks.trans (congrArg Part.works hmoving)
      have hcause : (addCause q .travelFault none).cycle = c :=
        (congrArg Part.cycle (addCause_frame (p := q) .travelFault none) :)
      have hcycle : (movePulse lines dir (cycleMoving q)).cycle = c := (congrArg Prod.snd hleft).trans hcause
      refine ⟨fun hyes => absurd hyes hstarts, fun _ => hcycle, (congrArg Prod.fst hleft).trans hdriven, fun horigin => ?_⟩
      intro moved told
      have htold' : addCause q .travelFault none = told := htold
      rw [hstays horigin, hmoving, htold']
      rfl
  · intro p q
    refine ⟨fun htimer hmoving hmode => ?_, fun htimer hmoving _ => exec_standstillTimerExpiry_moving hp htimer hmoving,
      exec_standstillTimerExpiry_none hp⟩
    exact (exec_standstillTimerExpiry_moving hp htimer hmoving).trans
      (congrArg (fun t => Host.Outcome.next (s.withPart t)) (startEvent_manual (p := q) hmode))

end Sys2Proof.Machine
end
